-- ==== Sys2Proof/Word.lean ====
section
/-!
DEFINITION. The plain data every other file speaks of: bytes, byte sequences, and the descriptor, which is this
machine's instruction word (00_scope R3, R13; 10_state R21; 30_encoding R60: "All operations have the same length,
one descriptor").
-/

namespace Sys2Proof

/-- A byte, an integer 0 to 255 (00_scope R13). -/
abbrev Byte := BitVec 8

/-- A byte sequence, index 0 first; it carries its own length (00_scope R13, 10_state R23). -/
abbrev Bytes := List Byte

/-- An operation descriptor: the operands of one operation (10_state R21). `offset` and `length` are unsigned
`LEN_W`-bit integers, held as naturals because `LEN_W` is a parameter and no sum of them wraps (00_scope R14;
20_memory R42; log 3). -/
structure Descriptor where
  /-- `OP`, the operation code (R22; 30_encoding R60). -/
  op : Byte
  /-- `IV`, the initialisation vector (R23). -/
  iv : Bytes
  /-- `KEY`, the cipher key (R23). -/
  key : Bytes
  /-- `MSG`, the message, the command parameters, or the pre-built APDU: the message space (R23; 20_memory R40). -/
  msg : Bytes
  /-- `OFFSET`, the first byte of the range inside `MSG` (R24). -/
  offset : Nat
  /-- `LENGTH`, the number of bytes in the range (R24). -/
  length : Nat
  /-- `CMD`, the instruction byte of the wrapped command (R25). -/
  cmd : Byte
  /-- `EXPECT`, the status word a single exchange must end with (R25). -/
  expect : BitVec 16
  deriving DecidableEq, Repr

/-- The descriptor that names operation code `op` and whose other fields are all zero or empty. -/
def Descriptor.bare (op : Byte) : Descriptor :=
  { op := op, iv := [], key := [], msg := [], offset := 0, length := 0, cmd := 0, expect := 0 }

end Sys2Proof
end

