-- ==== Sys2Proof/Config.lean ====
section
/-!
DEFINITION. The parameters of the engine (00_scope R9): the fixed ones as constants, the open ones as a record that
the state carries and no step changes (log 1), and the free values.
-/

namespace Sys2Proof

/-- The open parameters of 00_scope R9 (`CARRIER` is not modelled, R8, log 18). The defaults are R9's; for `chainMax`
R9 gives no default and suggests 256 (log 1). -/
structure Params where
  /-- `HAS_FRAMER`: whether the framer unit exists (43_framer R180). -/
  hasFramer : Bool := true
  /-- `CHAIN_MAX`: most physical exchanges of one chain operation (00_scope R10; 43_framer R189). -/
  chainMax : Nat := 256
  /-- `LEN_W`: the width of OFFSET, LENGTH and every buffer length. -/
  lenW : Nat := 16
  /-- `FRAME_MAX`: the longest frame the collaborator may hand back; its default is `2^LEN_W - 1`. -/
  frameMax : Nat := 2 ^ lenW - 1
  /-- `EMPTY_LC_OMITTED`: a wrapped command with no parameter bytes carries no Lc byte (30_encoding R69). -/
  emptyLcOmitted : Bool := true
  deriving DecidableEq, Repr

namespace Config

/-- `AES_BLOCK`. -/
def aesBlock : Nat := 16
/-- `AES_KEYLEN`. -/
def aesKeyLen : Nat := 16
/-- `TDES_BLOCK`. -/
def tdesBlock : Nat := 8
/-- `TDES_KEYLEN`. -/
def tdesKeyLen : Nat := 24
/-- `SW_MORE_DATA` (30_encoding R72). -/
def swMoreData : BitVec 16 := 0x91AF#16
/-- `SW_OPERATION_OK` (30_encoding R72). -/
def swOperationOk : BitVec 16 := 0x9100#16
/-- `CLA_WRAP`. -/
def claWrap : Byte := 0x90#8
/-- `INS_CONTINUE`. -/
def insContinue : Byte := 0xAF#8
/-- `LC_MAX`. -/
def lcMax : Nat := 255

/-- FREE VALUE. The reason of the failure that stands for a frame longer than `FRAME_MAX`. 00_scope R9 calls such a
frame "the collaborator's failure" and no rule states its 16-bit reason; the value is applied to a counter that the
exchange advances, so that two such failures need not agree (log 5). -/
opaque overlongReason : Nat → BitVec 16

end Config
end Sys2Proof
end

