-- ==== Sys2Proof/Machine/Bytes.lean ====
section
/-!
DEFINITION. Helpers on byte sequences and bit strings that the rules of the spec use by name: zeros, byte-wise XOR,
slices, the big-endian status word, and the DES bit numbering.
-/

namespace Sys2Proof.Machine

/-- `zeros(n)` (00_scope R13). -/
def zeros (n : Nat) : Bytes := List.replicate n 0#8

/-- `a XOR b` on two sequences of the same length (00_scope R13). -/
def xorBytes (a b : Bytes) : Bytes := List.zipWith (· ^^^ ·) a b

/-- `b[off : off + n]` (00_scope R13); it is all of `n` bytes when `off + n <= len(b)`. -/
def slice (b : Bytes) (off n : Nat) : Bytes := (b.drop off).take n

/-- Block `i` of a range `x` with block size `n`: bytes `i*n` to `i*n + n - 1`, in buffer order (20_memory R48). -/
def blockAt (n : Nat) (x : Bytes) (i : Nat) : Bytes := slice x (i * n) n

/-- `u16be(h, l) = 256*h + l` (00_scope R14; 20_memory R47). -/
def u16be (h l : Byte) : BitVec 16 := h ++ l

/-- A string of bits, the bit DES numbers 1 first (42_tdes R149). -/
abbrev Bits := List Bool

/-- The eight bits of a byte, most significant first (42_tdes R149). -/
def byteBits (b : Byte) : Bits := (List.range 8).map fun i => b.getLsbD (7 - i)

/-- Bit 1 is the most significant bit of byte 0, bit 64 the least significant bit of byte 7 (42_tdes R149). -/
def toBits (b : Bytes) : Bits := b.flatMap byteBits

/-- The number a bit string stands for, first bit most significant (42_tdes R155). -/
def bitsToNat (v : Bits) : Nat := v.foldl (fun n b => 2 * n + b.toNat) 0

/-- `n` bits of a number, most significant first (42_tdes R155). -/
def natToBits (n v : Nat) : Bits := (List.range n).map fun i => v.testBit (n - 1 - i)

/-- The first `n` bytes a bit string stands for (42_tdes R149). -/
def fromBits : Nat → Bits → Bytes
  | 0, _ => []
  | n + 1, v => BitVec.ofNat 8 (bitsToNat (v.take 8)) :: fromBits n (v.drop 8)

/-- Bit-wise exclusive or of two bit strings of the same length (42_tdes R155, R158). -/
def xorBits (a b : Bits) : Bits := List.zipWith (· ^^ ·) a b

/-- A permutation table applied to a bit string: the `i`-th bit of the result is bit `T[i]` of `v`, both counted from
1 (42_tdes R149). -/
def permute (table : List Nat) (v : Bits) : Bits := table.map fun i => v.getD (i - 1) false

/-- A bit string rotated left by `n` places (42_tdes R157). -/
def rotBits (n : Nat) (v : Bits) : Bits := v.drop n ++ v.take n

end Sys2Proof.Machine
end

