-- ==== Sys2Proof/Machine/Aes.lean ====
section
/-!
DEFINITION. The default AES-128 block primitive (41_aes R113 to R125, FIPS 197). The spec supplies it from general
knowledge and lets a model take it as the instance of its parameters AES128_E and AES128_D (40_cipher_common R103;
log 9). A block is the list of its sixteen bytes, byte `r + 4c` being row `r`, column `c` of the state (R113).
-/

namespace Sys2Proof.Machine

/-- `xtime(a)`: the product of `a` and x in GF(2^8) modulo x^8 + x^4 + x^3 + x + 1 (R114). -/
def xtime (a : Byte) : Byte := if a.getLsbD 7 then (a <<< 1) ^^^ 0x1B#8 else a <<< 1

/-- `xtime` applied `i` times (R114). -/
def xtimes : Nat → Byte → Byte
  | 0, a => a
  | i + 1, a => xtime (xtimes i a)

/-- The field product `a * b`: the XOR of `xtime^i(a)` over every set bit `i` of `b` (R114). -/
def gmul (a b : Byte) : Byte :=
  (List.range 8).foldl (fun acc i => if b.getLsbD i then acc ^^^ xtimes i a else acc) 0#8

/-- The field inverse, computed as the 254th power; `ginv 0 = 0` (R114). -/
def ginv (a : Byte) : Byte :=
  let a2 := gmul a a
  let a4 := gmul a2 a2
  let a8 := gmul a4 a4
  let a16 := gmul a8 a8
  let a32 := gmul a16 a16
  let a64 := gmul a32 a32
  let a128 := gmul a64 a64
  gmul a128 (gmul a64 (gmul a32 (gmul a16 (gmul a8 (gmul a4 a2)))))

/-- R115's formula for the S-box: the affine map of the field inverse. The meaning uses the table below, which R115
says was generated from this formula. -/
def sboxFormula (a : Byte) : Byte :=
  let b := ginv a
  b ^^^ b.rotateLeft 1 ^^^ b.rotateLeft 2 ^^^ b.rotateLeft 3 ^^^ b.rotateLeft 4 ^^^ 0x63#8

/-- The entry of a sixteen by sixteen table at row = high nibble, column = low nibble (R115). -/
def boxEntry (rows : List (List Nat)) (a : Byte) : Byte :=
  BitVec.ofNat 8 ((rows.getD (a.toNat / 16) []).getD (a.toNat % 16) 0)

/-- The S-box table of R115. -/
def sboxRows : List (List Nat) :=
    [[0x63, 0x7C, 0x77, 0x7B, 0xF2, 0x6B, 0x6F, 0xC5, 0x30, 0x01, 0x67, 0x2B, 0xFE, 0xD7, 0xAB, 0x76],
     [0xCA, 0x82, 0xC9, 0x7D, 0xFA, 0x59, 0x47, 0xF0, 0xAD, 0xD4, 0xA2, 0xAF, 0x9C, 0xA4, 0x72, 0xC0],
     [0xB7, 0xFD, 0x93, 0x26, 0x36, 0x3F, 0xF7, 0xCC, 0x34, 0xA5, 0xE5, 0xF1, 0x71, 0xD8, 0x31, 0x15],
     [0x04, 0xC7, 0x23, 0xC3, 0x18, 0x96, 0x05, 0x9A, 0x07, 0x12, 0x80, 0xE2, 0xEB, 0x27, 0xB2, 0x75],
     [0x09, 0x83, 0x2C, 0x1A, 0x1B, 0x6E, 0x5A, 0xA0, 0x52, 0x3B, 0xD6, 0xB3, 0x29, 0xE3, 0x2F, 0x84],
     [0x53, 0xD1, 0x00, 0xED, 0x20, 0xFC, 0xB1, 0x5B, 0x6A, 0xCB, 0xBE, 0x39, 0x4A, 0x4C, 0x58, 0xCF],
     [0xD0, 0xEF, 0xAA, 0xFB, 0x43, 0x4D, 0x33, 0x85, 0x45, 0xF9, 0x02, 0x7F, 0x50, 0x3C, 0x9F, 0xA8],
     [0x51, 0xA3, 0x40, 0x8F, 0x92, 0x9D, 0x38, 0xF5, 0xBC, 0xB6, 0xDA, 0x21, 0x10, 0xFF, 0xF3, 0xD2],
     [0xCD, 0x0C, 0x13, 0xEC, 0x5F, 0x97, 0x44, 0x17, 0xC4, 0xA7, 0x7E, 0x3D, 0x64, 0x5D, 0x19, 0x73],
     [0x60, 0x81, 0x4F, 0xDC, 0x22, 0x2A, 0x90, 0x88, 0x46, 0xEE, 0xB8, 0x14, 0xDE, 0x5E, 0x0B, 0xDB],
     [0xE0, 0x32, 0x3A, 0x0A, 0x49, 0x06, 0x24, 0x5C, 0xC2, 0xD3, 0xAC, 0x62, 0x91, 0x95, 0xE4, 0x79],
     [0xE7, 0xC8, 0x37, 0x6D, 0x8D, 0xD5, 0x4E, 0xA9, 0x6C, 0x56, 0xF4, 0xEA, 0x65, 0x7A, 0xAE, 0x08],
     [0xBA, 0x78, 0x25, 0x2E, 0x1C, 0xA6, 0xB4, 0xC6, 0xE8, 0xDD, 0x74, 0x1F, 0x4B, 0xBD, 0x8B, 0x8A],
     [0x70, 0x3E, 0xB5, 0x66, 0x48, 0x03, 0xF6, 0x0E, 0x61, 0x35, 0x57, 0xB9, 0x86, 0xC1, 0x1D, 0x9E],
     [0xE1, 0xF8, 0x98, 0x11, 0x69, 0xD9, 0x8E, 0x94, 0x9B, 0x1E, 0x87, 0xE9, 0xCE, 0x55, 0x28, 0xDF],
     [0x8C, 0xA1, 0x89, 0x0D, 0xBF, 0xE6, 0x42, 0x68, 0x41, 0x99, 0x2D, 0x0F, 0xB0, 0x54, 0xBB, 0x16]]

/-- The inverse S-box table of R116. -/
def invSboxRows : List (List Nat) :=
    [[0x52, 0x09, 0x6A, 0xD5, 0x30, 0x36, 0xA5, 0x38, 0xBF, 0x40, 0xA3, 0x9E, 0x81, 0xF3, 0xD7, 0xFB],
     [0x7C, 0xE3, 0x39, 0x82, 0x9B, 0x2F, 0xFF, 0x87, 0x34, 0x8E, 0x43, 0x44, 0xC4, 0xDE, 0xE9, 0xCB],
     [0x54, 0x7B, 0x94, 0x32, 0xA6, 0xC2, 0x23, 0x3D, 0xEE, 0x4C, 0x95, 0x0B, 0x42, 0xFA, 0xC3, 0x4E],
     [0x08, 0x2E, 0xA1, 0x66, 0x28, 0xD9, 0x24, 0xB2, 0x76, 0x5B, 0xA2, 0x49, 0x6D, 0x8B, 0xD1, 0x25],
     [0x72, 0xF8, 0xF6, 0x64, 0x86, 0x68, 0x98, 0x16, 0xD4, 0xA4, 0x5C, 0xCC, 0x5D, 0x65, 0xB6, 0x92],
     [0x6C, 0x70, 0x48, 0x50, 0xFD, 0xED, 0xB9, 0xDA, 0x5E, 0x15, 0x46, 0x57, 0xA7, 0x8D, 0x9D, 0x84],
     [0x90, 0xD8, 0xAB, 0x00, 0x8C, 0xBC, 0xD3, 0x0A, 0xF7, 0xE4, 0x58, 0x05, 0xB8, 0xB3, 0x45, 0x06],
     [0xD0, 0x2C, 0x1E, 0x8F, 0xCA, 0x3F, 0x0F, 0x02, 0xC1, 0xAF, 0xBD, 0x03, 0x01, 0x13, 0x8A, 0x6B],
     [0x3A, 0x91, 0x11, 0x41, 0x4F, 0x67, 0xDC, 0xEA, 0x97, 0xF2, 0xCF, 0xCE, 0xF0, 0xB4, 0xE6, 0x73],
     [0x96, 0xAC, 0x74, 0x22, 0xE7, 0xAD, 0x35, 0x85, 0xE2, 0xF9, 0x37, 0xE8, 0x1C, 0x75, 0xDF, 0x6E],
     [0x47, 0xF1, 0x1A, 0x71, 0x1D, 0x29, 0xC5, 0x89, 0x6F, 0xB7, 0x62, 0x0E, 0xAA, 0x18, 0xBE, 0x1B],
     [0xFC, 0x56, 0x3E, 0x4B, 0xC6, 0xD2, 0x79, 0x20, 0x9A, 0xDB, 0xC0, 0xFE, 0x78, 0xCD, 0x5A, 0xF4],
     [0x1F, 0xDD, 0xA8, 0x33, 0x88, 0x07, 0xC7, 0x31, 0xB1, 0x12, 0x10, 0x59, 0x27, 0x80, 0xEC, 0x5F],
     [0x60, 0x51, 0x7F, 0xA9, 0x19, 0xB5, 0x4A, 0x0D, 0x2D, 0xE5, 0x7A, 0x9F, 0x93, 0xC9, 0x9C, 0xEF],
     [0xA0, 0xE0, 0x3B, 0x4D, 0xAE, 0x2A, 0xF5, 0xB0, 0xC8, 0xEB, 0xBB, 0x3C, 0x83, 0x53, 0x99, 0x61],
     [0x17, 0x2B, 0x04, 0x7E, 0xBA, 0x77, 0xD6, 0x26, 0xE1, 0x69, 0x14, 0x63, 0x55, 0x21, 0x0C, 0x7D]]

/-- `SBOX` (R115). -/
def sbox (a : Byte) : Byte := boxEntry sboxRows a

/-- `INV_SBOX` (R116). -/
def invSbox (a : Byte) : Byte := boxEntry invSboxRows a

/-- `SubBytes` (R117). -/
def subBytes (s : Bytes) : Bytes := s.map sbox

/-- `InvSubBytes` (R117). -/
def invSubBytes (s : Bytes) : Bytes := s.map invSbox

/-- The byte of row `r`, column `c` of a block (R113). -/
def stateAt (s : Bytes) (r c : Nat) : Byte := s.getD (r + 4 * c) 0#8

/-- The block whose byte at row `r`, column `c` is `f r c`, column by column (R113). -/
def stateOf (f : Nat → Nat → Byte) : Bytes :=
  (List.range 4).flatMap fun c => (List.range 4).map fun r => f r c

/-- `ShiftRows`: `s'[r][c] = s[r][(c + r) mod 4]` (R118). -/
def shiftRows (s : Bytes) : Bytes := stateOf fun r c => stateAt s r ((c + r) % 4)

/-- `InvShiftRows`: `s'[r][c] = s[r][(c - r) mod 4]` (R123). -/
def invShiftRows (s : Bytes) : Bytes := stateOf fun r c => stateAt s r ((c + 4 - r) % 4)

/-- Each column replaced by its product with the circulant matrix whose first row is `k0 k1 k2 k3` and each of whose
rows is the previous one rotated right by one (R119, R123). -/
def mixWith (k0 k1 k2 k3 : Byte) (s : Bytes) : Bytes :=
  stateOf fun r c =>
    gmul (stateAt s r c) k0 ^^^ gmul (stateAt s ((r + 1) % 4) c) k1 ^^^
      gmul (stateAt s ((r + 2) % 4) c) k2 ^^^ gmul (stateAt s ((r + 3) % 4) c) k3

/-- `MixColumns`, first row `2 3 1 1` (R119). -/
def mixColumns (s : Bytes) : Bytes := mixWith 2#8 3#8 1#8 1#8 s

/-- `InvMixColumns`, first row `14 11 13 9` (R123). -/
def invMixColumns (s : Bytes) : Bytes := mixWith 14#8 11#8 13#8 9#8 s

/-- `AddRoundKey` (R120). -/
def addRoundKey (s rk : Bytes) : Bytes := xorBytes s rk

/-- `RCON[1..10]` (R121). -/
def rcon (i : Nat) : Byte :=
  [0x01#8, 0x02#8, 0x04#8, 0x08#8, 0x10#8, 0x20#8, 0x40#8, 0x80#8, 0x1B#8, 0x36#8].getD (i - 1) 0#8

/-- `RotWord(a0,a1,a2,a3) = (a1,a2,a3,a0)` (R121). -/
def rotWord (w : Bytes) : Bytes := w.drop 1 ++ w.take 1

/-- `SubWord`: the S-box on each byte (R121). -/
def subWord (w : Bytes) : Bytes := w.map sbox

/-- `t(i)` of the key expansion, from `w[i-1]` (R121). -/
def keyTemp (i : Nat) (prev : Bytes) : Bytes :=
  if i % 4 = 0 then xorBytes (subWord (rotWord prev)) [rcon (i / 4), 0#8, 0#8, 0#8] else prev

/-- The words `w[0..43]` of the key expansion (R121). -/
def keyWords (k : Bytes) : List Bytes :=
  (List.range' 4 40).foldl
    (fun w i => w ++ [xorBytes (w.getD (i - 4) []) (keyTemp i (w.getD (i - 1) []))])
    ((List.range 4).map fun i => slice k (4 * i) 4)

/-- Round key `r`: the sixteen bytes `w[4r] ++ w[4r+1] ++ w[4r+2] ++ w[4r+3]` (R121). -/
def roundKey (w : List Bytes) (r : Nat) : Bytes := ((w.drop (4 * r)).take 4).flatten

/-- A round of the cipher with a MixColumns (R122). -/
def aesRound (s rk : Bytes) : Bytes := addRoundKey (mixColumns (shiftRows (subBytes s))) rk

/-- A round of the inverse cipher with an InvMixColumns (R124). -/
def aesInvRound (s rk : Bytes) : Bytes := invMixColumns (addRoundKey (invSubBytes (invShiftRows s)) rk)

/-- `AES128_E(k, b)`: ten rounds, the last without MixColumns (R122). -/
def aes128E (k b : Bytes) : Bytes :=
  let w := keyWords k
  let s := (List.range' 1 9).foldl (fun s r => aesRound s (roundKey w r)) (addRoundKey b (roundKey w 0))
  addRoundKey (shiftRows (subBytes s)) (roundKey w 10)

/-- `AES128_D(k, c)`: the straightforward inverse with the same round keys (R124). -/
def aes128D (k c : Bytes) : Bytes :=
  let w := keyWords k
  let s := (List.range' 1 9).reverse.foldl (fun s r => aesInvRound s (roundKey w r))
    (addRoundKey c (roundKey w 10))
  addRoundKey (invSubBytes (invShiftRows s)) (roundKey w 0)

end Sys2Proof.Machine
end

