-- ==== Sys2Proof/Machine/Des.lean ====
section
/-!
DEFINITION. The default Triple-DES block primitive (42_tdes R145 to R160: DES of FIPS 46-3 and its triple use,
SP 800-67). The spec supplies it from general knowledge and lets a model take it as the instance of its parameters
TDES_E and TDES_D (40_cipher_common R103; log 9). Blocks and keys are bit strings, bit 1 first (R149).
-/

namespace Sys2Proof.Machine

/-- The initial permutation `IP` (R150). -/
def desIP : List Nat :=
  [58, 50, 42, 34, 26, 18, 10, 2, 60, 52, 44, 36, 28, 20, 12, 4,
   62, 54, 46, 38, 30, 22, 14, 6, 64, 56, 48, 40, 32, 24, 16, 8,
   57, 49, 41, 33, 25, 17, 9, 1, 59, 51, 43, 35, 27, 19, 11, 3,
   61, 53, 45, 37, 29, 21, 13, 5, 63, 55, 47, 39, 31, 23, 15, 7]

/-- The final permutation `FP` (R151). -/
def desFP : List Nat :=
  [40, 8, 48, 16, 56, 24, 64, 32, 39, 7, 47, 15, 55, 23, 63, 31,
   38, 6, 46, 14, 54, 22, 62, 30, 37, 5, 45, 13, 53, 21, 61, 29,
   36, 4, 44, 12, 52, 20, 60, 28, 35, 3, 43, 11, 51, 19, 59, 27,
   34, 2, 42, 10, 50, 18, 58, 26, 33, 1, 41, 9, 49, 17, 57, 25]

/-- The expansion `E` (R152). -/
def desExpand : List Nat :=
  [32, 1, 2, 3, 4, 5, 4, 5, 6, 7, 8, 9, 8, 9, 10, 11, 12, 13, 12, 13, 14, 15, 16, 17,
   16, 17, 18, 19, 20, 21, 20, 21, 22, 23, 24, 25, 24, 25, 26, 27, 28, 29, 28, 29, 30, 31, 32, 1]

/-- The permutation `P` (R153). -/
def desP : List Nat :=
  [16, 7, 20, 21, 29, 12, 28, 17, 1, 15, 23, 26, 5, 18, 31, 10,
   2, 8, 24, 14, 32, 27, 3, 9, 19, 13, 30, 6, 22, 11, 4, 25]

/-- The key permutation `PC1`, which never selects a parity bit (R156, R147). -/
def desPC1 : List Nat :=
  [57, 49, 41, 33, 25, 17, 9, 1, 58, 50, 42, 34, 26, 18, 10, 2, 59, 51, 43, 35, 27, 19, 11, 3, 60, 52, 44, 36,
   63, 55, 47, 39, 31, 23, 15, 7, 62, 54, 46, 38, 30, 22, 14, 6, 61, 53, 45, 37, 29, 21, 13, 5, 28, 20, 12, 4]

/-- The key permutation `PC2` (R156). -/
def desPC2 : List Nat :=
  [14, 17, 11, 24, 1, 5, 3, 28, 15, 6, 21, 10, 23, 19, 12, 4, 26, 8, 16, 7, 27, 20, 13, 2,
   41, 52, 31, 37, 47, 55, 30, 40, 51, 45, 33, 48, 44, 49, 39, 56, 34, 53, 46, 42, 50, 36, 29, 32]

/-- `SHIFT[1..16]` (R157). -/
def desShift : List Nat := [1, 1, 2, 2, 2, 2, 2, 2, 1, 2, 2, 2, 2, 2, 2, 1]

/-- `S1` (R154). -/
def desS1 : List (List Nat) :=
  [[14, 4, 13, 1, 2, 15, 11, 8, 3, 10, 6, 12, 5, 9, 0, 7],
   [0, 15, 7, 4, 14, 2, 13, 1, 10, 6, 12, 11, 9, 5, 3, 8],
   [4, 1, 14, 8, 13, 6, 2, 11, 15, 12, 9, 7, 3, 10, 5, 0],
   [15, 12, 8, 2, 4, 9, 1, 7, 5, 11, 3, 14, 10, 0, 6, 13]]

/-- `S2` (R154). -/
def desS2 : List (List Nat) :=
  [[15, 1, 8, 14, 6, 11, 3, 4, 9, 7, 2, 13, 12, 0, 5, 10],
   [3, 13, 4, 7, 15, 2, 8, 14, 12, 0, 1, 10, 6, 9, 11, 5],
   [0, 14, 7, 11, 10, 4, 13, 1, 5, 8, 12, 6, 9, 3, 2, 15],
   [13, 8, 10, 1, 3, 15, 4, 2, 11, 6, 7, 12, 0, 5, 14, 9]]

/-- `S3` (R154). -/
def desS3 : List (List Nat) :=
  [[10, 0, 9, 14, 6, 3, 15, 5, 1, 13, 12, 7, 11, 4, 2, 8],
   [13, 7, 0, 9, 3, 4, 6, 10, 2, 8, 5, 14, 12, 11, 15, 1],
   [13, 6, 4, 9, 8, 15, 3, 0, 11, 1, 2, 12, 5, 10, 14, 7],
   [1, 10, 13, 0, 6, 9, 8, 7, 4, 15, 14, 3, 11, 5, 2, 12]]

/-- `S4` (R154). -/
def desS4 : List (List Nat) :=
  [[7, 13, 14, 3, 0, 6, 9, 10, 1, 2, 8, 5, 11, 12, 4, 15],
   [13, 8, 11, 5, 6, 15, 0, 3, 4, 7, 2, 12, 1, 10, 14, 9],
   [10, 6, 9, 0, 12, 11, 7, 13, 15, 1, 3, 14, 5, 2, 8, 4],
   [3, 15, 0, 6, 10, 1, 13, 8, 9, 4, 5, 11, 12, 7, 2, 14]]

/-- `S5` (R154). -/
def desS5 : List (List Nat) :=
  [[2, 12, 4, 1, 7, 10, 11, 6, 8, 5, 3, 15, 13, 0, 14, 9],
   [14, 11, 2, 12, 4, 7, 13, 1, 5, 0, 15, 10, 3, 9, 8, 6],
   [4, 2, 1, 11, 10, 13, 7, 8, 15, 9, 12, 5, 6, 3, 0, 14],
   [11, 8, 12, 7, 1, 14, 2, 13, 6, 15, 0, 9, 10, 4, 5, 3]]

/-- `S6` (R154). -/
def desS6 : List (List Nat) :=
  [[12, 1, 10, 15, 9, 2, 6, 8, 0, 13, 3, 4, 14, 7, 5, 11],
   [10, 15, 4, 2, 7, 12, 9, 5, 6, 1, 13, 14, 0, 11, 3, 8],
   [9, 14, 15, 5, 2, 8, 12, 3, 7, 0, 4, 10, 1, 13, 11, 6],
   [4, 3, 2, 12, 9, 5, 15, 10, 11, 14, 1, 7, 6, 0, 8, 13]]

/-- `S7` (R154). -/
def desS7 : List (List Nat) :=
  [[4, 11, 2, 14, 15, 0, 8, 13, 3, 12, 9, 7, 5, 10, 6, 1],
   [13, 0, 11, 7, 4, 9, 1, 10, 14, 3, 5, 12, 2, 15, 8, 6],
   [1, 4, 11, 13, 12, 3, 7, 14, 10, 15, 6, 8, 0, 5, 9, 2],
   [6, 11, 13, 8, 1, 4, 10, 7, 9, 5, 0, 15, 14, 2, 3, 12]]

/-- `S8` (R154). -/
def desS8 : List (List Nat) :=
  [[13, 2, 8, 4, 6, 15, 11, 1, 10, 9, 3, 14, 5, 0, 12, 7],
   [1, 15, 13, 8, 10, 3, 7, 4, 12, 5, 6, 11, 0, 14, 9, 2],
   [7, 11, 4, 1, 9, 12, 14, 2, 0, 6, 10, 13, 15, 3, 5, 8],
   [2, 1, 14, 7, 4, 10, 8, 13, 15, 12, 9, 0, 3, 5, 6, 11]]

/-- The eight S-boxes in order (R154). -/
def desBoxes : List (List (List Nat)) := [desS1, desS2, desS3, desS4, desS5, desS6, desS7, desS8]

/-- The output of one box on a group `b1 b2 b3 b4 b5 b6`: row `b1 b6`, column `b2 b3 b4 b5`, four bits, most
significant first (R155). -/
def desBox (box : List (List Nat)) (g : Bits) : Bits :=
  let row := bitsToNat [g.getD 0 false, g.getD 5 false]
  let col := bitsToNat ((g.drop 1).take 4)
  natToBits 4 ((box.getD row []).getD col 0)

/-- The eight boxes applied to the eight six-bit groups of a 48-bit string, in order (R155). -/
def desSubst : List (List (List Nat)) → Bits → Bits
  | [], _ => []
  | box :: boxes, x => desBox box (x.take 6) ++ desSubst boxes (x.drop 6)

/-- The round function `f(R, RK)` (R155). -/
def desF (r rk : Bits) : Bits := permute desP (desSubst desBoxes (xorBits (permute desExpand r) rk))

/-- The round keys from the halves `C` and `D`, one for each shift: both halves are rotated left and `PC2` selects
from their concatenation (R157). -/
def desKeysFrom : List Nat → Bits → Bits → List Bits
  | [], _, _ => []
  | n :: ns, c, d => permute desPC2 (rotBits n c ++ rotBits n d) :: desKeysFrom ns (rotBits n c) (rotBits n d)

/-- The round keys `RK1..RK16` of an eight-byte key (R157). -/
def desKeys (k : Bytes) : List Bits :=
  let cd := permute desPC1 (toBits k)
  desKeysFrom desShift (cd.take 28) (cd.drop 28)

/-- The rounds `Li = R(i-1)`, `Ri = L(i-1) XOR f(R(i-1), RKi)` from the halves `(L0, R0)` (R158). -/
def desRounds : List Bits → Bits × Bits → Bits × Bits
  | [], lr => lr
  | rk :: rks, lr => desRounds rks (lr.2, xorBits lr.1 (desF lr.2 rk))

/-- DES with the round keys in the order given: IP, the rounds, the halves swapped, FP (R158, R159). -/
def desWith (rks : List Bits) (b : Bytes) : Bytes :=
  let v := permute desIP (toBits b)
  let lr := desRounds rks (v.take 32, v.drop 32)
  fromBits 8 (permute desFP (lr.2 ++ lr.1))

/-- `DES_E(K, b)` (R158). -/
def desE (k b : Bytes) : Bytes := desWith (desKeys k) b

/-- `DES_D(K, c)`: the round keys in the order RK16 to RK1 (R159). -/
def desD (k c : Bytes) : Bytes := desWith (desKeys k).reverse c

/-- The key part `K1 = key[0:8]` (R145). -/
def keyPart1 (key : Bytes) : Bytes := slice key 0 8
/-- The key part `K2 = key[8:16]` (R145). -/
def keyPart2 (key : Bytes) : Bytes := slice key 8 8
/-- The key part `K3 = key[16:24]` (R145). -/
def keyPart3 (key : Bytes) : Bytes := slice key 16 8

/-- `TDES_E(key, b) = DES_E(K3, DES_D(K2, DES_E(K1, b)))` (R146). -/
def tdesE (key b : Bytes) : Bytes := desE (keyPart3 key) (desD (keyPart2 key) (desE (keyPart1 key) b))

/-- `TDES_D(key, c) = DES_D(K1, DES_E(K2, DES_D(K3, c)))` (R146). -/
def tdesD (key c : Bytes) : Bytes := desD (keyPart1 key) (desE (keyPart2 key) (desD (keyPart3 key) c))

end Sys2Proof.Machine
end

