-- ==== Sys2Proof/Syntax.lean ====
section
/-!
DEFINITION. The thirteen operations, one constructor per row of `spec/opcode_table.json`, each with the descriptor
fields it uses as its operands (30_encoding R64, R66) in the order of the written form (R74: IV, KEY, MSG, OFFSET,
LENGTH, CMD, EXPECT). A field an operation does not use is no operand of it, which is R67.
-/

namespace Sys2Proof

/-- An operation in the written form of 30_encoding R74 (log 14). -/
inductive Instr where
  /-- `AES_ENC`, 0x10 (41_aes R110). -/
  | aesEnc (iv key msg : Bytes)
  /-- `AES_DEC`, 0x11 (41_aes R111). -/
  | aesDec (iv key msg : Bytes)
  /-- `AES_DEC_R`, 0x13 (41_aes R112). -/
  | aesDecR (iv key msg : Bytes) (offset length : Nat)
  /-- `TDES_ENC`, 0x20 (42_tdes R140). -/
  | tdesEnc (iv key msg : Bytes)
  /-- `TDES_DEC`, 0x21 (42_tdes R141). -/
  | tdesDec (iv key msg : Bytes)
  /-- `TDES_DEC_R`, 0x23 (42_tdes R142). -/
  | tdesDecR (iv key msg : Bytes) (offset length : Nat)
  /-- `TDES_DEC_Z`, 0x25 (42_tdes R143). -/
  | tdesDecZ (key msg : Bytes)
  /-- `TDES_DEC_ZR`, 0x27 (42_tdes R144). -/
  | tdesDecZR (key msg : Bytes) (offset length : Nat)
  /-- `SEND_CMD`, 0x40 (43_framer R181). -/
  | sendCmd (msg : Bytes) (cmd : Byte) (expect : BitVec 16)
  /-- `SEND_CMD_R`, 0x42 (43_framer R182). -/
  | sendCmdR (msg : Bytes) (offset length : Nat) (cmd : Byte) (expect : BitVec 16)
  /-- `SEND_CHAIN`, 0x44 (43_framer R183). -/
  | sendChain (msg : Bytes) (cmd : Byte)
  /-- `SEND_CHAIN_R`, 0x46 (43_framer R184). -/
  | sendChainR (msg : Bytes) (offset length : Nat) (cmd : Byte)
  /-- `SEND_APDU_CHAIN`, 0x48 (43_framer R185). -/
  | sendApduChain (msg : Bytes)
  deriving DecidableEq, Repr

end Sys2Proof
end

