-- ==== Sys2Proof/WellFormed.lean ====
section
/-!
DEFINITION. What can be presented to the engine at all: a byte sequence has at most 2^LEN_W - 1 bytes, OFFSET and
LENGTH are LEN_W-bit numbers (10_state R23, R24), and the parameters are ones an engine can be built with (00_scope
R9). Wrong-size keys and IVs are NOT ill-formed: the engine receives them and answers with an error (R23).
-/

namespace Sys2Proof

/-- `v` is a `LEN_W`-bit value: an offset, a length, or the length of a byte sequence (10_state R23, R24). -/
def Params.fits (p : Params) (v : Nat) : Bool := v < 2 ^ p.lenW

/-- `CHAIN_MAX >= 1` (00_scope R9): the only constraint R9 puts on an open parameter. -/
def Params.wf (p : Params) : Bool := 1 ≤ p.chainMax

/-- A descriptor the carrier can present (10_state R23, R24; log 13). -/
def Descriptor.presentable (p : Params) (d : Descriptor) : Bool :=
  p.fits d.iv.length && p.fits d.key.length && p.fits d.msg.length && p.fits d.offset && p.fits d.length

/-- An instruction whose operands can all be presented (10_state R23, R24). -/
def Instr.wf (p : Params) : Instr → Bool
  | .aesEnc iv key msg => p.fits iv.length && p.fits key.length && p.fits msg.length
  | .aesDec iv key msg => p.fits iv.length && p.fits key.length && p.fits msg.length
  | .aesDecR iv key msg offset length =>
      p.fits iv.length && p.fits key.length && p.fits msg.length && p.fits offset && p.fits length
  | .tdesEnc iv key msg => p.fits iv.length && p.fits key.length && p.fits msg.length
  | .tdesDec iv key msg => p.fits iv.length && p.fits key.length && p.fits msg.length
  | .tdesDecR iv key msg offset length =>
      p.fits iv.length && p.fits key.length && p.fits msg.length && p.fits offset && p.fits length
  | .tdesDecZ key msg => p.fits key.length && p.fits msg.length
  | .tdesDecZR key msg offset length =>
      p.fits key.length && p.fits msg.length && p.fits offset && p.fits length
  | .sendCmd msg _ _ => p.fits msg.length
  | .sendCmdR msg offset length _ _ => p.fits msg.length && p.fits offset && p.fits length
  | .sendChain msg _ => p.fits msg.length
  | .sendChainR msg offset length _ => p.fits msg.length && p.fits offset && p.fits length
  | .sendApduChain msg => p.fits msg.length

end Sys2Proof
end

