-- ==== Sys2Proof/Decode.lean ====
section
/-!
DEFINITION. The decoder, from a descriptor to the operation it asks for, and the encoder back. The operation code is
read by its fields: UNIT = OP[7:4] (30_encoding R60, R61), and inside a unit the flag bits of R62 or the KIND and R
fields of R63. Every reserved code is refused by the name of the rule that reserves it (R65). The carrier's own bytes
are not fixed by the spec, so what is decoded is the descriptor as a structured value (00_scope R8; log 14, log 18).
-/

namespace Sys2Proof

/-- Why an operation code is reserved (30_encoding R60, R62, R63, R65). Each is answered by the same error result,
OperandError 0x41; none is a fault of the model. -/
inductive Reserved where
  /-- UNIT is none of 1, 2, 4 (R60). -/
  | unit
  /-- Bit 3 of a cipher FN is set (R62). -/
  | cipherBit3
  /-- R = 1 with DIR = 0: there is no range form of encryption (R62; 90_conflicts C7). -/
  | encryptRange
  /-- Z = 1 with DIR = 0: there is no zero-IV form of encryption (R62). -/
  | encryptZeroIv
  /-- Z = 1 with UNIT = 1: the AES unit has no zero-IV form (R62). -/
  | aesZeroIv
  /-- Bit 0 of a framer FN is set (R63). -/
  | framerBit0
  /-- KIND = 3 (R63). -/
  | framerKind3
  /-- KIND = 2 with R = 1: a pre-built APDU has no range form (R63). -/
  | apduRange
  deriving DecidableEq, Repr

/-- `OP[7:4]`, UNIT (30_encoding R60). -/
def opUnit (op : Byte) : BitVec 4 := op.extractLsb' 4 4
/-- `OP[0]` of a cipher operation, DIR: set for decryption (30_encoding R62). -/
def opDir (op : Byte) : Bool := op.getLsbD 0
/-- `OP[1]`, R: the range form (30_encoding R62, R63). -/
def opRange (op : Byte) : Bool := op.getLsbD 1
/-- `OP[2]` of a cipher operation, Z: the zero-IV form (30_encoding R62). -/
def opZero (op : Byte) : Bool := op.getLsbD 2
/-- `OP[3]`, bit 3 of FN: must be 0 in a cipher operation (30_encoding R62). -/
def opBit3 (op : Byte) : Bool := op.getLsbD 3
/-- `OP[3:2]` of a framer operation, KIND (30_encoding R63). -/
def opKind (op : Byte) : BitVec 2 := op.extractLsb' 2 2

/-- The AES unit's operations (30_encoding R62; 41_aes R110 to R112). -/
def decodeAes (d : Descriptor) : Except Reserved Instr :=
  if opBit3 d.op then .error .cipherBit3
  else if opZero d.op then .error .aesZeroIv
  else match opDir d.op, opRange d.op with
    | false, false => .ok (.aesEnc d.iv d.key d.msg)
    | false, true => .error .encryptRange
    | true, false => .ok (.aesDec d.iv d.key d.msg)
    | true, true => .ok (.aesDecR d.iv d.key d.msg d.offset d.length)

/-- The TDES unit's operations (30_encoding R62; 42_tdes R140 to R144). -/
def decodeTdes (d : Descriptor) : Except Reserved Instr :=
  if opBit3 d.op then .error .cipherBit3
  else match opDir d.op, opZero d.op, opRange d.op with
    | false, false, false => .ok (.tdesEnc d.iv d.key d.msg)
    | false, true, _ => .error .encryptZeroIv
    | false, false, true => .error .encryptRange
    | true, false, false => .ok (.tdesDec d.iv d.key d.msg)
    | true, false, true => .ok (.tdesDecR d.iv d.key d.msg d.offset d.length)
    | true, true, false => .ok (.tdesDecZ d.key d.msg)
    | true, true, true => .ok (.tdesDecZR d.key d.msg d.offset d.length)

/-- The framer's operations (30_encoding R63; 43_framer R181 to R185). They decode whether or not the unit is fitted
(43_framer R180: the codes stay legal). -/
def decodeFramer (d : Descriptor) : Except Reserved Instr :=
  if opDir d.op then .error .framerBit0
  else match (opKind d.op).toNat, opRange d.op with
    | 0, false => .ok (.sendCmd d.msg d.cmd d.expect)
    | 0, true => .ok (.sendCmdR d.msg d.offset d.length d.cmd d.expect)
    | 1, false => .ok (.sendChain d.msg d.cmd)
    | 1, true => .ok (.sendChainR d.msg d.offset d.length d.cmd)
    | 2, false => .ok (.sendApduChain d.msg)
    | 2, true => .error .apduRange
    | _, _ => .error .framerKind3

/-- The operation a descriptor asks for, or why its code is reserved: total on every descriptor (30_encoding R60 to
R66). -/
def decode (d : Descriptor) : Except Reserved Instr :=
  match (opUnit d.op).toNat with
  | 1 => decodeAes d
  | 2 => decodeTdes d
  | 4 => decodeFramer d
  | _ => .error .unit

/-- The operation code of an operation (30_encoding R64's table, row by row). -/
def opcode : Instr → Byte
  | .aesEnc _ _ _ => 0x10#8
  | .aesDec _ _ _ => 0x11#8
  | .aesDecR _ _ _ _ _ => 0x13#8
  | .tdesEnc _ _ _ => 0x20#8
  | .tdesDec _ _ _ => 0x21#8
  | .tdesDecR _ _ _ _ _ => 0x23#8
  | .tdesDecZ _ _ => 0x25#8
  | .tdesDecZR _ _ _ _ => 0x27#8
  | .sendCmd _ _ _ => 0x40#8
  | .sendCmdR _ _ _ _ _ => 0x42#8
  | .sendChain _ _ => 0x44#8
  | .sendChainR _ _ _ _ => 0x46#8
  | .sendApduChain _ => 0x48#8

/-- The descriptor of an operation: its code, its operands in the fields R66 names, and zero or empty in the fields
it does not use (30_encoding R64, R66; log 14). -/
def encode (i : Instr) : Descriptor :=
  let b := Descriptor.bare (opcode i)
  match i with
  | .aesEnc iv key msg => { b with iv := iv, key := key, msg := msg }
  | .aesDec iv key msg => { b with iv := iv, key := key, msg := msg }
  | .aesDecR iv key msg offset length =>
      { b with iv := iv, key := key, msg := msg, offset := offset, length := length }
  | .tdesEnc iv key msg => { b with iv := iv, key := key, msg := msg }
  | .tdesDec iv key msg => { b with iv := iv, key := key, msg := msg }
  | .tdesDecR iv key msg offset length =>
      { b with iv := iv, key := key, msg := msg, offset := offset, length := length }
  | .tdesDecZ key msg => { b with key := key, msg := msg }
  | .tdesDecZR key msg offset length => { b with key := key, msg := msg, offset := offset, length := length }
  | .sendCmd msg cmd expect => { b with msg := msg, cmd := cmd, expect := expect }
  | .sendCmdR msg offset length cmd expect =>
      { b with msg := msg, offset := offset, length := length, cmd := cmd, expect := expect }
  | .sendChain msg cmd => { b with msg := msg, cmd := cmd }
  | .sendChainR msg offset length cmd =>
      { b with msg := msg, offset := offset, length := length, cmd := cmd }
  | .sendApduChain msg => { b with msg := msg }

/-- The descriptor whose operation code is the low `nbits` bits of `w` (the table gives every row eight) and whose
operand fields are all zero or empty, as the table numbers bits. -/
def tableDescriptor (nbits w : Nat) : Descriptor :=
  Descriptor.bare (BitVec.ofNat 8 (w % 2 ^ nbits))

/-- The instruction the decoder reads from a row of `spec/opcode_table.json`: none where the code is reserved. -/
def decodeTableWord (nbits w : Nat) : Option Instr :=
  match decode (tableDescriptor nbits w) with
  | .ok i => some i
  | .error _ => none

end Sys2Proof
end

