-- ==== Sys2Proof/Machine/State.lean ====
section
/-!
DEFINITION. The state of the machine as plain data: the five things of 10_state R20 (descriptor latch, result latch,
phase, framer working state, cipher working state) and, beside them, what a step of one deterministic machine needs to
know of the other agents: the parameters in force, what the collaborator will answer, what the host will do (log 1,
log 4, log 6).
-/

namespace Sys2Proof.Machine

/-- `PHASE` (10_state R29). -/
inductive Phase where
  /-- No operation in progress; START is accepted. -/
  | idle
  /-- An operation is in progress; START is refused. -/
  | busy
  deriving DecidableEq, Repr

/-- The four error classes and success, `RES.code[7:4]` (10_state R28; 60_exceptions R220). -/
inductive ErrorClass where
  /-- 0x0, not an error. -/
  | ok
  /-- 0x1, `CipherError`. -/
  | cipher
  /-- 0x2, `ProtocolError`. -/
  | protocol
  /-- 0x3, `TransportError`. -/
  | transport
  /-- 0x4, `OperandError`. -/
  | operand
  deriving DecidableEq, Repr

/-- The causes of an error result, one per row of 60_exceptions R221 but the success row. -/
inductive Cause where
  /-- 0x11 `INVALID_KEY_SIZE`. -/
  | invalidKeySize
  /-- 0x12 `INVALID_IV_SIZE`. -/
  | invalidIvSize
  /-- 0x13 `INVALID_BLOCK_LENGTH`. -/
  | invalidBlockLength
  /-- 0x21 `UNEXPECTED_STATUS`. -/
  | unexpectedStatus
  /-- 0x22 `CHAIN_TOO_LONG`. -/
  | chainTooLong
  /-- 0x23 `SHORT_RESPONSE`. -/
  | shortResponse
  /-- 0x31 `EXCHANGE_FAILED`. -/
  | exchangeFailed
  /-- 0x41 `ILLEGAL_OP`. -/
  | illegalOp
  /-- 0x42 `RANGE_OUT_OF_BOUNDS`. -/
  | rangeOutOfBounds
  /-- 0x43 `PARAM_TOO_LONG`. -/
  | paramTooLong
  /-- 0x44 `UNIT_ABSENT`. -/
  | unitAbsent
  deriving DecidableEq, Repr

/-- What a `raise` carries: the cause and the two context values (60_exceptions R223). -/
structure OpError where
  cause : Cause
  expected : Nat
  actual : Nat
  deriving DecidableEq, Repr

/-- The result latch `RES` (10_state R28). `expected` and `actual` are naturals: the widths R28 gives them are a
bound (log 3). -/
structure Result where
  /-- 0x00 success, otherwise the error code of 60_exceptions R221. -/
  code : Byte
  expected : Nat
  actual : Nat
  /-- The ciphertext, plaintext or response data: the result space (20_memory R40). -/
  data : Bytes
  deriving DecidableEq, Repr

/-- The cipher working state (10_state R31): the CBC chaining value and the block index. It is loaded and discarded
inside one step, so it reads as cleared between steps (log 16). -/
structure CipherWork where
  chain : Bytes
  index : Nat
  deriving DecidableEq, Repr

/-- One thing the collaborator does while an exchange is outstanding (00_scope R16; 60_exceptions R233, R234). -/
inductive Answer where
  /-- `Ok(r)`: the response frame `r`. -/
  | ok (r : Bytes)
  /-- `Fail(reason)`: a 16-bit value the collaborator chooses. -/
  | fail (reason : BitVec 16)
  /-- It has not answered yet. -/
  | silent
  deriving DecidableEq, Repr

/-- What an `Exchange` comes to in one step: R16's `Ok(r)` or `Fail(reason)`, or no answer yet (60_exceptions R234). -/
inductive Reply where
  | ok (r : Bytes)
  | fail (reason : BitVec 16)
  | waiting
  deriving DecidableEq, Repr

/-- The link to the collaborator (20_memory R40 space 3; 60_exceptions R233). -/
structure Link where
  /-- What the collaborator will do, next first; nothing listed means it never answers again (R234; log 4). -/
  answers : List Answer
  /-- The frames handed to the collaborator so far, oldest first: exchanges are side effects that happened (20_memory
  R51). -/
  sent : List Bytes
  /-- A frame has been handed over and not answered (60_exceptions R234; log 7). -/
  outstanding : Bool
  deriving DecidableEq, Repr

/-- What the host does next (70_reset_and_hazards R250, R253; log 6). -/
inductive HostAction where
  /-- START with a descriptor (R253). -/
  | start (d : Descriptor)
  /-- Reset (R250, R251). -/
  | reset
  /-- Nothing: the engine takes its own step. -/
  | wait
  deriving DecidableEq, Repr

/-- The state. Every field but `cfg`, `link`, `host` and `freeCount` is the spec's (10_state R20); those four are the
model's own (log 1, log 4, log 5, log 6). -/
structure State where
  /-- The parameters in force (00_scope R9); no step changes them. -/
  cfg : Params
  /-- The descriptor latch `D` (10_state R21). -/
  d : Descriptor
  /-- The result latch `RES` (10_state R28). -/
  res : Result
  /-- `PHASE` (10_state R29). -/
  phase : Phase
  /-- `DONE` (10_state R29). -/
  done : Bool
  /-- `ACC`, the accumulated response (10_state R30). -/
  acc : Bytes
  /-- `ITER`, the exchanges of this operation that returned `Ok` (10_state R30). -/
  iter : Nat
  /-- `TXF`, the frame the next exchange will send (10_state R30). -/
  txf : Bytes
  /-- The cipher working state (10_state R31). -/
  work : CipherWork
  /-- The link to the collaborator. -/
  link : Link
  /-- The host's actions still to come, next first; nothing listed means it does nothing more. -/
  host : List HostAction
  /-- How many free values have been used (log 5). -/
  freeCount : Nat
  deriving DecidableEq, Repr

/-- The only fault. The hardware has none: an error is a result (60_exceptions R226). -/
inductive Fault where
  /-- `MemRead(a, n)` with `a + n > len(D.MSG)`, which 20_memory R41 leaves undefined and says never happens, every
  use being guarded by the range check of R42. Raised by the shared cipher and framer operations where they read the
  message space; safe, since the machine stops where it could only be wrong (log 12). -/
  | memReadUndefined
  deriving DecidableEq, Repr

/-- The reasons an instruction has no meaning. -/
inductive Refusal where
  /-- An instruction the model does not model yet, by its mnemonic. Raised by no arm of `exec`: all thirteen operations
  have their meaning; safe. -/
  | notModelled (mnemonic : String)
  deriving DecidableEq, Repr

/-- The result latch after reset (10_state R36). -/
def Result.cleared : Result := { code := 0x00#8, expected := 0, actual := 0, data := [] }

/-- The cleared cipher working state (10_state R36). -/
def CipherWork.cleared : CipherWork := { chain := [], index := 0 }

/-- The link before anything has happened on it. -/
def Link.quiet : Link := { answers := [], sent := [], outstanding := false }

/-- The machine right after reset (10_state R36; 70_reset_and_hazards R250). `D.OP`, `D.CMD`, `D.EXPECT`, `D.OFFSET`
and `D.LENGTH`, which R36 leaves unspecified, hold zero (DESIGN CHOICE, log 2); the parameters are R9's defaults (log
1). -/
def State.reset : State :=
  { cfg := {}, d := Descriptor.bare 0x00#8, res := Result.cleared, phase := .idle, done := false, acc := [],
    iter := 0, txf := [], work := CipherWork.cleared, link := Link.quiet, host := [], freeCount := 0 }

end Sys2Proof.Machine
end

