-- ==== Sys2Proof/Machine/Cbc.lean ====
section
/-!
DEFINITION. The cipher record of 40_cipher_common R90 and the CBC recurrences of R97 and R98, written once for both
units. The recurrences run on the cipher working state of 10_state R31.
-/

namespace Sys2Proof.Machine

/-- A cipher record `C = (B, KL, E, Dd)` (40_cipher_common R90). -/
structure Cipher where
  /-- `B`, the block and IV size. -/
  block : Nat
  /-- `KL`, the one accepted key size. -/
  keyLen : Nat
  /-- `E(k, b)`. -/
  enc : Bytes → Bytes → Bytes
  /-- `Dd(k, c)`. -/
  dec : Bytes → Bytes → Bytes

/-- The AES unit's record, with the default primitives (40_cipher_common R90; 41_aes R122, R124; log 9). -/
def aesCipher : Cipher :=
  { block := Config.aesBlock, keyLen := Config.aesKeyLen, enc := aes128E, dec := aes128D }

/-- The TDES unit's record, with the default primitives (40_cipher_common R90; 42_tdes R146; log 9). -/
def tdesCipher : Cipher :=
  { block := Config.tdesBlock, keyLen := Config.tdesKeyLen, enc := tdesE, dec := tdesD }

/-- DIR, `OP[0]` (30_encoding R62). -/
inductive Dir where
  | encrypt
  | decrypt
  deriving DecidableEq, Repr

/-- One block of the recurrence: the output block and the working state for the next one (40_cipher_common R97 for
encryption, R98 for decryption). `w.chain` is `c[i-1]` and `w.index` is `i`. -/
def cbcBlock (C : Cipher) (dir : Dir) (k x : Bytes) (w : CipherWork) : Bytes × CipherWork :=
  let b := blockAt C.block x w.index
  match dir with
  | .encrypt =>
      let c := C.enc k (xorBytes b w.chain)
      (c, { chain := c, index := w.index + 1 })
  | .decrypt => (xorBytes (C.dec k b) w.chain, { chain := b, index := w.index + 1 })

/-- `m` blocks of the recurrence, their outputs concatenated in order (40_cipher_common R97, R98). -/
def cbcLoop (C : Cipher) (dir : Dir) (k x : Bytes) : Nat → CipherWork → Bytes × CipherWork
  | 0, w => ([], w)
  | m + 1, w =>
      let out := cbcBlock C dir k x w
      let rest := cbcLoop C dir k x m out.2
      (out.1 ++ rest.1, rest.2)

/-- The whole recurrence on a range `x` of `m * B` bytes, from `c[-1] = iv`: the result and the working state it
leaves (40_cipher_common R97, R98). -/
def cbcRun (C : Cipher) (dir : Dir) (iv k x : Bytes) : Bytes × CipherWork :=
  cbcLoop C dir k x (x.length / C.block) { chain := iv, index := 0 }

/-- `CbcEnc(C, iv, k, x)` (40_cipher_common R97). -/
def cbcEnc (C : Cipher) (iv k x : Bytes) : Bytes := (cbcRun C .encrypt iv k x).1

/-- `CbcDec(C, iv, k, x)` (40_cipher_common R98). -/
def cbcDec (C : Cipher) (iv k x : Bytes) : Bytes := (cbcRun C .decrypt iv k x).1

end Sys2Proof.Machine
end

