-- ==== Sys2Proof/Machine/Flags.lean ====
section
/-!
DEFINITION. The status the engine reports. It has no flags register apart from `RES.code` and `PHASE` (10_state R20);
the 'flag computations' are the code of a cause, the class of a code, and how a status word is read.
-/

namespace Sys2Proof.Machine

/-- The code of a cause, `RES.code` (60_exceptions R221). -/
def Cause.code : Cause → Byte
  | .invalidKeySize => 0x11#8
  | .invalidIvSize => 0x12#8
  | .invalidBlockLength => 0x13#8
  | .unexpectedStatus => 0x21#8
  | .chainTooLong => 0x22#8
  | .shortResponse => 0x23#8
  | .exchangeFailed => 0x31#8
  | .illegalOp => 0x41#8
  | .rangeOutOfBounds => 0x42#8
  | .paramTooLong => 0x43#8
  | .unitAbsent => 0x44#8

/-- The class of a cause, in words (60_exceptions R220, R221). -/
def Cause.cls : Cause → ErrorClass
  | .invalidKeySize | .invalidIvSize | .invalidBlockLength => .cipher
  | .unexpectedStatus | .chainTooLong | .shortResponse => .protocol
  | .exchangeFailed => .transport
  | .illegalOp | .rangeOutOfBounds | .paramTooLong | .unitAbsent => .operand

/-- The class a result code names: `RES.code[7:4]` (10_state R28). No code with another high nibble is ever written
(60_exceptions R221). -/
def codeClass (code : Byte) : Option ErrorClass :=
  match (code.extractLsb' 4 4).toNat with
  | 0 => some .ok
  | 1 => some .cipher
  | 2 => some .protocol
  | 3 => some .transport
  | 4 => some .operand
  | _ => none

/-- What a status word tells a chain operation (30_encoding R72; 43_framer R195). -/
inductive Status where
  /-- 0x91AF: additional frame follows. -/
  | moreData
  /-- 0x9100: operation complete. -/
  | complete
  /-- Anything else: protocol error, chain aborted. -/
  | other
  deriving DecidableEq, Repr

/-- The three-way reading of a status word, by exact 16-bit equality (43_framer R195). -/
def chainStatus (sw : BitVec 16) : Status :=
  if sw = Config.swMoreData then .moreData else if sw = Config.swOperationOk then .complete else .other

end Sys2Proof.Machine
end

