-- ==== Sys2Proof/Machine/Ops.lean ====
section
/-!
DEFINITION. The named operations over the state that every meaning goes through: the two access primitives of the
byte spaces, completion (success and error entry, the engine's 'exceptions'), the exchange with the collaborator, and
the host's two actions, START and reset. START is also the return from an error: there is no other (60_exceptions
R228).
-/

namespace Sys2Proof.Machine

/-! ### Byte spaces (20_memory R40, R41) -/

/-- A byte space: the message space `D.MSG` or the result space `RES.data`. A byte sequence has one form, so equal
spaces are equal data (log 12). -/
abbrev Memory := Bytes

/-- A byte space a machine with `LEN_W`-bit lengths can hold (10_state R23). -/
abbrev Memory.wf (p : Params) (m : Memory) : Prop := m.length < 2 ^ p.lenW

/-- The byte at offset `a`, if there is one (20_memory R40). -/
def readByte (m : Memory) (a : Nat) : Option Byte := m[a]?

/-- `MemRead(a, n)`: defined only when `a + n <= len` (20_memory R41). -/
def memRead (m : Memory) (a n : Nat) : Option Bytes :=
  if a + n ≤ m.length then some (slice m a n) else none

/-- `MemWrite(a, n, v)`: places the bytes `v` at offsets `a` to `a + len(v) - 1`; a gap before them is filled with
zeros, which no rule makes use of (20_memory R41). -/
def memWrite (m : Memory) (a : Nat) (v : Bytes) : Memory :=
  m.take a ++ zeros (a - m.length) ++ v ++ m.drop (a + v.length)

/-! ### Completion: success, and error entry -/

/-- The last step of every operation: `RES` takes all four fields, the working state is discarded, `PHASE <- IDLE`,
`DONE <- true`; `D` and everything else stay (70_reset_and_hazards R254; 60_exceptions R226; 10_state R30). -/
def complete (r : Result) (s : State) : State :=
  { s with res := r, acc := [], iter := 0, txf := [], work := CipherWork.cleared, phase := .idle, done := true }

/-- `done(data)`: completion with success; the data is written to the empty result space at offset 0 (00_scope R16;
40_cipher_common R91 step 7). -/
def finish (data : Bytes) (s : State) : State :=
  complete { code := 0x00#8, expected := 0, actual := 0, data := memWrite [] 0 data } s

/-- `raise <Class>(code, e, a)`: error entry (60_exceptions R226). -/
def raise (e : OpError) (s : State) : State :=
  complete { code := e.cause.code, expected := e.expected, actual := e.actual, data := [] } s

/-- What a reserved operation code does: OperandError 0x41, `expected = 0`, `actual = zext(D.OP)` (30_encoding R65). -/
def raiseIllegalOp (s : State) : State := raise ⟨.illegalOp, 0, s.d.op.toNat⟩ s

/-! ### The exchange with the collaborator -/

/-- The link once the frame `f` has been handed over: nothing more is sent while an exchange is outstanding
(60_exceptions R234; 20_memory R51, R52). -/
def Link.handOver (f : Bytes) (l : Link) : Link :=
  if l.outstanding then l else { l with sent := l.sent ++ [f], outstanding := true }

/-- `Exchange(f)` in one step (00_scope R16): the frame is handed over unless it already was, and the collaborator's
next doing is taken. A response longer than `FRAME_MAX` is the collaborator's failure (00_scope R9), with a free
reason (log 5). -/
def exchange (f : Bytes) (s : State) : Reply × State :=
  let l := s.link.handOver f
  match l.answers with
  | [] => (.waiting, { s with link := l })
  | .silent :: rest => (.waiting, { s with link := { l with answers := rest } })
  | .fail reason :: rest => (.fail reason, { s with link := { l with answers := rest, outstanding := false } })
  | .ok r :: rest =>
      if r.length ≤ s.cfg.frameMax then
        (.ok r, { s with link := { l with answers := rest, outstanding := false } })
      else
        (.fail (Config.overlongReason s.freeCount),
          { s with link := { l with answers := rest, outstanding := false }, freeCount := s.freeCount + 1 })

/-! ### The host's actions -/

/-- Whether START of a descriptor clears the framer working state: `d.OP[7:4] = 0x4` (70_reset_and_hazards R253). -/
def isFramerOp (op : Byte) : Bool := opUnit op == 0x4#4

/-- The effect of an accepted START (70_reset_and_hazards R253). Nothing is checked here: a bad descriptor is
answered by the operation's own first step. -/
def latch (d : Descriptor) (s : State) : State :=
  let t := { s with d := d, done := false, phase := .busy }
  if isFramerOp d.op then { t with acc := [], iter := 0, txf := [] } else t

/-- START: accepted when `PHASE = IDLE`, refused with no effect at all when BUSY (70_reset_and_hazards R253, R255).
The carrier does not present a sequence longer than 2^LEN_W - 1 bytes (10_state R23; log 13). -/
def start (d : Descriptor) (s : State) : State :=
  if s.phase = .idle ∧ d.presentable s.cfg then latch d s else s

/-- The collaborator's future without the answer to the exchange that a reset abandoned: that answer "when it comes,
is dropped" (70_reset_and_hazards R251; log 8). -/
def dropReply : List Answer → List Answer
  | [] => []
  | .silent :: rest => dropReply rest
  | _ :: rest => rest

/-- Reset, delivered at any moment between two steps (70_reset_and_hazards R250, R251): the engine's own state takes
the values of 10_state R36; the parameters, the host, and what has already happened on the link are not the engine's
to clear. -/
def resetEngine (s : State) : State :=
  { State.reset with
    cfg := s.cfg
    host := s.host
    freeCount := s.freeCount
    link :=
      { s.link with
        answers := if s.link.outstanding then dropReply s.link.answers else s.link.answers
        outstanding := false } }

/-! ### What the host can see -/

/-- What the host can read of the engine (10_state R27, R28, R29): `PHASE`, `DONE`, and `RES` only when `PHASE = IDLE`.
There is no way to read `D` back, nor any working state (60_exceptions R236). -/
structure HostView where
  phase : Phase
  done : Bool
  res : Option Result
  deriving DecidableEq, Repr

/-- The host's view of a state. Reading changes nothing. -/
def hostView (s : State) : HostView :=
  { phase := s.phase, done := s.done, res := if s.phase = .idle then some s.res else none }

end Sys2Proof.Machine
end

