-- ==== Sys2Proof/Machine/Operands.lean ====
section
/-!
DEFINITION. The operand forms and their checks: the range of an operation (20_memory R42), the checks of a cipher
operation in the priority of 60_exceptions R224, those of a framer operation in the priority of R225, and the frames
built from operands (30_encoding R68 to R70).
-/

namespace Sys2Proof.Machine

/-- A range `[off, off + len)` of a message buffer (20_memory R42). -/
structure Range where
  off : Nat
  len : Nat
  deriving DecidableEq, Repr

/-- The range of an operation that is not a range form: all of `D.MSG` (20_memory R42; 10_state R24). -/
def wholeOf (msg : Bytes) : Range := { off := 0, len := msg.length }

/-- The operand checks of a cipher operation in order: key size, IV size, range (the sum does not wrap), block length; the
first that fails (20_memory R42; 40_cipher_common R91 steps 2 to 5, R92 to R95; 60_exceptions R224). A Z form passes
the zero IV, whose check cannot fail (R93). -/
def cipherError (C : Cipher) (iv key msg : Bytes) (rg : Range) : Option OpError :=
  if key.length ≠ C.keyLen then some ⟨.invalidKeySize, C.keyLen, key.length⟩
  else if iv.length ≠ C.block then some ⟨.invalidIvSize, C.block, iv.length⟩
  else if rg.off + rg.len > msg.length then some ⟨.rangeOutOfBounds, msg.length, rg.off + rg.len⟩
  else if rg.len % C.block ≠ 0 then some ⟨.invalidBlockLength, C.block, rg.len⟩
  else none

/-- The unit check of a framer operation: 0x44 when the framer is not built (43_framer R180). -/
def unitError (s : State) : Option OpError :=
  if s.cfg.hasFramer then none else some ⟨.unitAbsent, 0, s.d.op.toNat⟩

/-- The operand checks of a framer operation that wraps its parameters, in order: unit, range, Lc; the first that
fails (43_framer R180 to R184; 30_encoding R77; 60_exceptions R225). -/
def framerError (s : State) (msg : Bytes) (rg : Range) : Option OpError :=
  if ¬ s.cfg.hasFramer then some ⟨.unitAbsent, 0, s.d.op.toNat⟩
  else if rg.off + rg.len > msg.length then some ⟨.rangeOutOfBounds, msg.length, rg.off + rg.len⟩
  else if rg.len > Config.lcMax then some ⟨.paramTooLong, Config.lcMax, rg.len⟩
  else none

/-- `Wrap(c, p)`: the command APDU of a command byte and its parameters (30_encoding R68, R69; 43_framer R186). -/
def wrap (p : Params) (cmd : Byte) (params : Bytes) : Bytes :=
  if params.length = 0 ∧ p.emptyLcOmitted then [Config.claWrap, cmd, 0x00#8, 0x00#8, 0x00#8]
  else [Config.claWrap, cmd, 0x00#8, 0x00#8, BitVec.ofNat 8 params.length] ++ params ++ [0x00#8]

/-- `CONT = Wrap(0xAF, [])`, the continuation frame (30_encoding R70). -/
def contFrame (p : Params) : Bytes := wrap p Config.insContinue []

/-- `Split(r)`: the data and the trailing big-endian status word of a response of at least two bytes; `none` for a
shorter one (30_encoding R71; 43_framer R187; 20_memory R47). -/
def split (r : Bytes) : Option (Bytes × BitVec 16) :=
  if r.length < 2 then none
  else some (r.take (r.length - 2), u16be (r.getD (r.length - 2) 0#8) (r.getD (r.length - 1) 0#8))

end Sys2Proof.Machine
end

