-- ==== Sys2Proof/Machine/Cipher.lean ====
section
/-!
DEFINITION. The one step of a cipher operation, shared by the eight (40_cipher_common R91).
-/

namespace Sys2Proof.Machine

/-- The cipher itself on a range that passed every check: the recurrence runs in the cipher working state, and the
completion writes the result and discards that state (40_cipher_common R91 steps 6 and 7; 10_state R31). -/
def cipherRun (C : Cipher) (dir : Dir) (iv key x : Bytes) (s : State) : State :=
  let run := cbcRun C dir iv key x
  finish run.1 { s with work := run.2 }

/-- `CipherOp(D)`: one atomic step, the checks first, none with a side effect (40_cipher_common R91). -/
def cipherOp (C : Cipher) (dir : Dir) (iv key msg : Bytes) (rg : Range) (s : State) :
    Host.Outcome State Fault Refusal :=
  match cipherError C iv key msg rg with
  | some e => .next (raise e s)
  | none =>
    match memRead msg rg.off rg.len with
    | some x => .next (cipherRun C dir iv key x s)
    | none => .fault .memReadUndefined

end Sys2Proof.Machine
end

