-- ==== Sys2Proof/Machine/AesUnit.lean ====
section
/-!
DEFINITION. The AES unit: `AES_ENC`, `AES_DEC`, `AES_DEC_R` (41_aes R110 to R112).
-/

namespace Sys2Proof.Machine

/-- `AES_ENC`: AES-128-CBC encryption of a whole buffer (41_aes R110). -/
def execAesEnc (iv key msg : Bytes) (s : State) : Host.Outcome State Fault Refusal :=
  cipherOp aesCipher .encrypt iv key msg (wholeOf msg) s

/-- `AES_DEC`: AES-128-CBC decryption of a whole buffer (41_aes R111). -/
def execAesDec (iv key msg : Bytes) (s : State) : Host.Outcome State Fault Refusal :=
  cipherOp aesCipher .decrypt iv key msg (wholeOf msg) s

/-- `AES_DEC_R`: AES-128-CBC decryption of a range of a buffer (41_aes R112). -/
def execAesDecR (iv key msg : Bytes) (offset length : Nat) (s : State) : Host.Outcome State Fault Refusal :=
  cipherOp aesCipher .decrypt iv key msg ⟨offset, length⟩ s

end Sys2Proof.Machine
end

