-- ==== Sys2Proof/Machine/Framer.lean ====
section
/-!
DEFINITION. The framer (43_framer): the single exchange of `SEND_CMD` and `SEND_CMD_R`, the chain loop of
`SEND_CHAIN`, `SEND_CHAIN_R` and `SEND_APDU_CHAIN`. One call is one step of the framer agent (00_scope R11).
-/

namespace Sys2Proof.Machine

/-- What a single exchange makes of its response: the status word must equal the expected one, and 0x91AF has no
special meaning (43_framer R181; 90_conflicts C2). -/
def singleReply (expect : BitVec 16) (r : Bytes) (s : State) : State :=
  match split r with
  | none => raise ⟨.shortResponse, 2, r.length⟩ s
  | some (data, sw) =>
      if sw = expect then finish data s else raise ⟨.unexpectedStatus, expect.toNat, sw.toNat⟩ s

/-- The step of a single-exchange operation whose frame `TXF` is set (43_framer R181). While the collaborator has not
answered, the engine stays BUSY (60_exceptions R234). -/
def singleStep (expect : BitVec 16) (s : State) : State :=
  match exchange s.txf s with
  | (.waiting, t) => t
  | (.fail reason, t) => raise ⟨.exchangeFailed, 0, reason.toNat⟩ t
  | (.ok r, t) => singleReply expect r t

/-- `SEND_CMD` and `SEND_CMD_R`: the checks, the wrapped command, one exchange (43_framer R181, R182). `TXF` holds the
frame while the exchange is outstanding (10_state R30; log 15). -/
def sendSingle (msg : Bytes) (rg : Range) (cmd : Byte) (expect : BitVec 16) (s : State) :
    Host.Outcome State Fault Refusal :=
  match framerError s msg rg with
  | some e => .next (raise e s)
  | none =>
    match memRead msg rg.off rg.len with
    | some params => .next (singleStep expect { s with txf := wrap s.cfg cmd params })
    | none => .fault .memReadUndefined

/-- What the chain loop makes of a response, once it has been counted (43_framer R188, R195). -/
def chainReply (r : Bytes) (s : State) : State :=
  match split r with
  | none => raise ⟨.shortResponse, 2, r.length⟩ s
  | some (data, sw) =>
      match chainStatus sw with
      | .moreData => { s with acc := s.acc ++ data, txf := contFrame s.cfg }
      | .complete => finish (s.acc ++ data) s
      | .other => raise ⟨.unexpectedStatus, Config.swOperationOk.toNat, sw.toNat⟩ s

/-- One pass of the chain loop: the bound, the exchange, the count, the branch (43_framer R188, R189, R191). -/
def chainStep (s : State) : State :=
  if s.iter = s.cfg.chainMax then raise ⟨.chainTooLong, s.cfg.chainMax, s.iter⟩ s
  else
    match exchange s.txf s with
    | (.waiting, t) => t
    | (.fail reason, t) => raise ⟨.exchangeFailed, 0, reason.toNat⟩ t
    | (.ok r, t) => chainReply r { t with iter := t.iter + 1 }

/-- The start of the chain loop: `ACC := []`, `ITER := 0`, `TXF := first` (43_framer R188). -/
def chainInit (first : Bytes) (s : State) : State := { s with acc := [], iter := 0, txf := first }

/-- `SEND_CHAIN` and `SEND_CHAIN_R`: before the first exchange has returned (`ITER = 0`, log 10) the checks and the
first frame, then a pass of the loop (43_framer R183, R184). -/
def sendChained (msg : Bytes) (rg : Range) (cmd : Byte) (s : State) : Host.Outcome State Fault Refusal :=
  if s.iter = 0 then
    match framerError s msg rg with
    | some e => .next (raise e s)
    | none =>
      match memRead msg rg.off rg.len with
      | some params => .next (chainStep (chainInit (wrap s.cfg cmd params) s))
      | none => .fault .memReadUndefined
  else .next (chainStep s)

/-- `SEND_CMD` (43_framer R181). -/
def execSendCmd (msg : Bytes) (cmd : Byte) (expect : BitVec 16) (s : State) : Host.Outcome State Fault Refusal :=
  sendSingle msg (wholeOf msg) cmd expect s

/-- `SEND_CMD_R` (43_framer R182). -/
def execSendCmdR (msg : Bytes) (offset length : Nat) (cmd : Byte) (expect : BitVec 16) (s : State) :
    Host.Outcome State Fault Refusal :=
  sendSingle msg ⟨offset, length⟩ cmd expect s

/-- `SEND_CHAIN` (43_framer R183). -/
def execSendChain (msg : Bytes) (cmd : Byte) (s : State) : Host.Outcome State Fault Refusal :=
  sendChained msg (wholeOf msg) cmd s

/-- `SEND_CHAIN_R` (43_framer R184). -/
def execSendChainR (msg : Bytes) (offset length : Nat) (cmd : Byte) (s : State) : Host.Outcome State Fault Refusal :=
  sendChained msg ⟨offset, length⟩ cmd s

/-- `SEND_APDU_CHAIN`: the host-built frame is sent as it is, with no range and no Lc to check (43_framer R185;
30_encoding R78). -/
def execSendApduChain (msg : Bytes) (s : State) : Host.Outcome State Fault Refusal :=
  if s.iter = 0 then
    match unitError s with
    | some e => .next (raise e s)
    | none => .next (chainStep (chainInit msg s))
  else .next (chainStep s)

end Sys2Proof.Machine
end

