-- ==== Sys2Proof/Machine/TdesUnit.lean ====
section
/-!
DEFINITION. The TDES unit: `TDES_ENC`, `TDES_DEC`, `TDES_DEC_R` and the zero-IV forms `TDES_DEC_Z`, `TDES_DEC_ZR`
(42_tdes R140 to R144).
-/

namespace Sys2Proof.Machine

/-- `TDES_ENC`: Triple-DES-CBC encryption of a whole buffer (42_tdes R140). -/
def execTdesEnc (iv key msg : Bytes) (s : State) : Host.Outcome State Fault Refusal :=
  cipherOp tdesCipher .encrypt iv key msg (wholeOf msg) s

/-- `TDES_DEC`: Triple-DES-CBC decryption of a whole buffer (42_tdes R141). -/
def execTdesDec (iv key msg : Bytes) (s : State) : Host.Outcome State Fault Refusal :=
  cipherOp tdesCipher .decrypt iv key msg (wholeOf msg) s

/-- `TDES_DEC_R`: Triple-DES-CBC decryption of a range (42_tdes R142). -/
def execTdesDecR (iv key msg : Bytes) (offset length : Nat) (s : State) : Host.Outcome State Fault Refusal :=
  cipherOp tdesCipher .decrypt iv key msg ⟨offset, length⟩ s

/-- `TDES_DEC_Z`: Triple-DES-CBC decryption of a whole buffer with the all-zero IV (42_tdes R143). -/
def execTdesDecZ (key msg : Bytes) (s : State) : Host.Outcome State Fault Refusal :=
  cipherOp tdesCipher .decrypt (zeros tdesCipher.block) key msg (wholeOf msg) s

/-- `TDES_DEC_ZR`: Triple-DES-CBC decryption of a range with the all-zero IV (42_tdes R144). -/
def execTdesDecZR (key msg : Bytes) (offset length : Nat) (s : State) : Host.Outcome State Fault Refusal :=
  cipherOp tdesCipher .decrypt (zeros tdesCipher.block) key msg ⟨offset, length⟩ s

end Sys2Proof.Machine
end

