-- ==== Sys2Proof/Machine/Dispatch.lean ====
section
/-!
DEFINITION. One arm per operation of `spec/opcode_table.json`, each one call of its meaning.
-/

namespace Sys2Proof.Machine

def exec (i : Instr) (s : State) : Host.Outcome State Fault Refusal :=
  match i with
  | .aesEnc iv key msg => Sys2Proof.Machine.execAesEnc iv key msg s
  | .aesDec iv key msg => Sys2Proof.Machine.execAesDec iv key msg s
  | .aesDecR iv key msg offset length => Sys2Proof.Machine.execAesDecR iv key msg offset length s
  | .tdesEnc iv key msg => Sys2Proof.Machine.execTdesEnc iv key msg s
  | .tdesDec iv key msg => Sys2Proof.Machine.execTdesDec iv key msg s
  | .tdesDecR iv key msg offset length => Sys2Proof.Machine.execTdesDecR iv key msg offset length s
  | .tdesDecZ key msg => Sys2Proof.Machine.execTdesDecZ key msg s
  | .tdesDecZR key msg offset length => Sys2Proof.Machine.execTdesDecZR key msg offset length s
  | .sendCmd msg cmd expect => Sys2Proof.Machine.execSendCmd msg cmd expect s
  | .sendCmdR msg offset length cmd expect => Sys2Proof.Machine.execSendCmdR msg offset length cmd expect s
  | .sendChain msg cmd => Sys2Proof.Machine.execSendChain msg cmd s
  | .sendChainR msg offset length cmd => Sys2Proof.Machine.execSendChainR msg offset length cmd s
  | .sendApduChain msg => Sys2Proof.Machine.execSendApduChain msg s

end Sys2Proof.Machine
end

