-- ==== Sys2Proof/Machine/Engine.lean ====
section
/-!
DEFINITION. Which agent moves and what it does: the engine's own step on the latched descriptor, and the host's turn
before it (00_scope R11; log 6). There is no program counter: the pair (`PHASE`, `ITER`) says where an operation
stands (10_state R34).
-/

namespace Sys2Proof.Machine

/-- The engine's own step. Idle, it does nothing. Busy, it runs the operation the latched descriptor asks for, and
answers a reserved code with OperandError 0x41 before looking at any other field (30_encoding R65; 70_reset_and_hazards
R262). -/
def engineStep (s : State) : Host.Outcome State Fault Refusal :=
  match s.phase with
  | .idle => .next s
  | .busy =>
    match decode s.d with
    | .ok i => exec i s
    | .error _ => .next (raiseIllegalOp s)

/-- One turn: the host's next action if it has one, otherwise the engine's own step (log 6). -/
def turn (s : State) : Host.Outcome State Fault Refusal :=
  match s.host with
  | [] => engineStep s
  | .wait :: rest => engineStep { s with host := rest }
  | .start d :: rest => .next (start d { s with host := rest })
  | .reset :: rest => .next (resetEngine { s with host := rest })

/-- The state in which the very next turn is the first step of the operation that descriptor `d` asks for: what an
accepted START of `d` leaves, with the engine to move and no exchange of another operation in progress. -/
def withDescriptor (d : Descriptor) (s : State) : State :=
  let t := latch d s
  { t with acc := [], iter := 0, txf := [], link := { s.link with outstanding := false }, host := .wait :: s.host }

end Sys2Proof.Machine
end

