-- ==== Sys2Proof/Machine/Step.lean ====
section
/-!
DEFINITION. The step of the machine, and how an opcode-table word is placed where the next step runs it.
-/

namespace Sys2Proof.Machine

/-- One step of the machine: one agent's move. -/
def step (s : State) : Host.Outcome State Fault Refusal := turn s

/-- `s` with the operation code `w` (and zero or empty operands) latched as an accepted START would latch it, so that
the very next step runs it. There is no program memory: a program is the host's list of actions (10_state R34; log 6). -/
def State.withFetchWord (s : State) (nbits w : Nat) : State := withDescriptor (tableDescriptor nbits w) s

end Sys2Proof.Machine
end

