-- ==== Sys2Proof/Laws/Bytes.lean ====
section
/-!
SUPPORT. Lengths and shapes of the byte-sequence and bit-string helpers, and of the frames built from them.
-/

namespace Sys2Proof.Machine

@[simp] theorem zeros_length (n : Nat) : (zeros n).length = n := by simp [zeros]

@[simp] theorem xorBytes_length (a b : Bytes) : (xorBytes a b).length = min a.length b.length := by simp [xorBytes]

@[simp] theorem slice_length (b : Bytes) (off n : Nat) : (slice b off n).length = min n (b.length - off) := by
  simp [slice]

/-- All of a buffer is its range from 0 (20_memory R42). -/
@[simp] theorem slice_whole (b : Bytes) : slice b 0 b.length = b := by simp [slice]

@[simp] theorem wholeOf_off (msg : Bytes) : (wholeOf msg).off = 0 := rfl

@[simp] theorem wholeOf_len (msg : Bytes) : (wholeOf msg).len = msg.length := rfl

theorem xorBytes_cons (x y : Byte) (a b : Bytes) : xorBytes (x :: a) (y :: b) = (x ^^^ y) :: xorBytes a b := rfl

/-- XOR with the same sequence twice gives back the first, where the second covers it. -/
theorem xorBytes_cancel : ∀ (a b : Bytes), a.length ≤ b.length → xorBytes (xorBytes a b) b = a
  | [], _, _ => by simp [xorBytes]
  | x :: a, [], h => by simp at h
  | x :: a, y :: b, h => by
      simp only [List.length_cons, Nat.add_le_add_iff_right] at h
      simp [xorBytes_cons, xorBytes_cancel a b h]

@[simp] theorem byteBits_length (b : Byte) : (byteBits b).length = 8 := by simp [byteBits]

@[simp] theorem toBits_length (b : Bytes) : (toBits b).length = 8 * b.length := by
  induction b with
  | nil => rfl
  | cons x xs ih => simp only [toBits, List.flatMap_cons, List.length_append, byteBits_length] at ih ⊢
                    rw [ih]; simp only [List.length_cons]; omega

@[simp] theorem fromBits_length (n : Nat) (v : Bits) : (fromBits n v).length = n := by
  induction n generalizing v with
  | zero => rfl
  | succ n ih => simp [fromBits, ih]

@[simp] theorem permute_length (t : List Nat) (v : Bits) : (permute t v).length = t.length := by simp [permute]

@[simp] theorem natToBits_length (n v : Nat) : (natToBits n v).length = n := by simp [natToBits]

/-- A response that is some data and two trailer bytes splits into them, first trailer byte high (43_framer R187). -/
theorem split_append (data : Bytes) (h l : Byte) : split (data ++ [h, l]) = some (data, u16be h l) := by
  simp [split, List.getD_eq_getElem?_getD]

/-- A response that splits has at least two bytes, and its data is the rest of it (43_framer R187). -/
theorem split_some {r data : Bytes} {sw : BitVec 16} (h : split r = some (data, sw)) :
    2 ≤ r.length ∧ data = r.take (r.length - 2) := by
  unfold split at h
  split at h
  · cases h
  · simp only [Option.some.injEq, Prod.mk.injEq] at h
    exact ⟨by omega, h.1.symm⟩

/-- A response does not split exactly when it has fewer than two bytes (43_framer R187). -/
theorem split_none {r : Bytes} : split r = none ↔ r.length < 2 := by
  unfold split; split <;> simp_all

end Sys2Proof.Machine
end

