-- ==== Sys2Proof/Laws/State.lean ====
section
/-!
SUPPORT. The small lemmas of the state's updates: for each update one lemma per field, true by `rfl` (or by the one
`if` an update makes), so that no later proof unfolds a record update.
-/

namespace Sys2Proof.Machine

/-! ### Completion (70_reset_and_hazards R254; 60_exceptions R226) -/

@[simp] theorem complete_cfg (r : Result) (s : State) : (complete r s).cfg = s.cfg := rfl
@[simp] theorem complete_d (r : Result) (s : State) : (complete r s).d = s.d := rfl
@[simp] theorem complete_res (r : Result) (s : State) : (complete r s).res = r := rfl
@[simp] theorem complete_phase (r : Result) (s : State) : (complete r s).phase = .idle := rfl
@[simp] theorem complete_done (r : Result) (s : State) : (complete r s).done = true := rfl
@[simp] theorem complete_acc (r : Result) (s : State) : (complete r s).acc = [] := rfl
@[simp] theorem complete_iter (r : Result) (s : State) : (complete r s).iter = 0 := rfl
@[simp] theorem complete_txf (r : Result) (s : State) : (complete r s).txf = [] := rfl
@[simp] theorem complete_work (r : Result) (s : State) : (complete r s).work = CipherWork.cleared := rfl
@[simp] theorem complete_link (r : Result) (s : State) : (complete r s).link = s.link := rfl
@[simp] theorem complete_host (r : Result) (s : State) : (complete r s).host = s.host := rfl
@[simp] theorem complete_freeCount (r : Result) (s : State) : (complete r s).freeCount = s.freeCount := rfl

@[simp] theorem raise_cfg (e : OpError) (s : State) : (raise e s).cfg = s.cfg := rfl
@[simp] theorem raise_d (e : OpError) (s : State) : (raise e s).d = s.d := rfl
@[simp] theorem raise_res (e : OpError) (s : State) : (raise e s).res = { code := e.cause.code, expected := e.expected, actual := e.actual, data := [] } := rfl
@[simp] theorem raise_phase (e : OpError) (s : State) : (raise e s).phase = .idle := rfl
@[simp] theorem raise_done (e : OpError) (s : State) : (raise e s).done = true := rfl
@[simp] theorem raise_acc (e : OpError) (s : State) : (raise e s).acc = [] := rfl
@[simp] theorem raise_iter (e : OpError) (s : State) : (raise e s).iter = 0 := rfl
@[simp] theorem raise_txf (e : OpError) (s : State) : (raise e s).txf = [] := rfl
@[simp] theorem raise_work (e : OpError) (s : State) : (raise e s).work = CipherWork.cleared := rfl
@[simp] theorem raise_link (e : OpError) (s : State) : (raise e s).link = s.link := rfl
@[simp] theorem raise_host (e : OpError) (s : State) : (raise e s).host = s.host := rfl
@[simp] theorem raise_freeCount (e : OpError) (s : State) : (raise e s).freeCount = s.freeCount := rfl

/-- Writing a buffer to the empty result space gives that buffer (20_memory R41, R44). -/
@[simp] theorem memWrite_nil_zero (v : Bytes) : memWrite [] 0 v = v := by
  simp [memWrite, zeros]

@[simp] theorem finish_cfg (data : Bytes) (s : State) : (finish data s).cfg = s.cfg := rfl
@[simp] theorem finish_d (data : Bytes) (s : State) : (finish data s).d = s.d := rfl
@[simp] theorem finish_res (data : Bytes) (s : State) : (finish data s).res = { code := 0x00#8, expected := 0, actual := 0, data := data } := by simp [finish]
@[simp] theorem finish_phase (data : Bytes) (s : State) : (finish data s).phase = .idle := rfl
@[simp] theorem finish_done (data : Bytes) (s : State) : (finish data s).done = true := rfl
@[simp] theorem finish_acc (data : Bytes) (s : State) : (finish data s).acc = [] := rfl
@[simp] theorem finish_iter (data : Bytes) (s : State) : (finish data s).iter = 0 := rfl
@[simp] theorem finish_txf (data : Bytes) (s : State) : (finish data s).txf = [] := rfl
@[simp] theorem finish_work (data : Bytes) (s : State) : (finish data s).work = CipherWork.cleared := rfl
@[simp] theorem finish_link (data : Bytes) (s : State) : (finish data s).link = s.link := rfl
@[simp] theorem finish_host (data : Bytes) (s : State) : (finish data s).host = s.host := rfl
@[simp] theorem finish_freeCount (data : Bytes) (s : State) : (finish data s).freeCount = s.freeCount := rfl

/-- Completion overwrites the cipher working state, whatever it held (10_state R31). -/
@[simp] theorem complete_set_work (r : Result) (w : CipherWork) (s : State) :
    complete r { s with work := w } = complete r s := rfl

/-- Success as one record: the four result fields are written together (10_state R28). -/
theorem finish_eq_complete (data : Bytes) (s : State) :
    finish data s = complete { code := 0x00#8, expected := 0, actual := 0, data := data } s := by
  simp [finish]

/-- Error entry as one record (60_exceptions R226). -/
theorem raise_eq_complete (e : OpError) (s : State) :
    raise e s = complete { code := e.cause.code, expected := e.expected, actual := e.actual, data := [] } s := rfl

/-! ### START (70_reset_and_hazards R253) -/

@[simp] theorem latch_cfg (d : Descriptor) (s : State) : (latch d s).cfg = s.cfg := by
  unfold latch; split <;> rfl
@[simp] theorem latch_d (d : Descriptor) (s : State) : (latch d s).d = d := by
  unfold latch; split <;> rfl
@[simp] theorem latch_res (d : Descriptor) (s : State) : (latch d s).res = s.res := by
  unfold latch; split <;> rfl
@[simp] theorem latch_phase (d : Descriptor) (s : State) : (latch d s).phase = .busy := by
  unfold latch; split <;> rfl
@[simp] theorem latch_done (d : Descriptor) (s : State) : (latch d s).done = false := by
  unfold latch; split <;> rfl
@[simp] theorem latch_acc (d : Descriptor) (s : State) :
    (latch d s).acc = if isFramerOp d.op then [] else s.acc := by
  unfold latch; split <;> simp_all
@[simp] theorem latch_iter (d : Descriptor) (s : State) :
    (latch d s).iter = if isFramerOp d.op then 0 else s.iter := by
  unfold latch; split <;> simp_all
@[simp] theorem latch_txf (d : Descriptor) (s : State) :
    (latch d s).txf = if isFramerOp d.op then [] else s.txf := by
  unfold latch; split <;> simp_all
@[simp] theorem latch_work (d : Descriptor) (s : State) : (latch d s).work = s.work := by
  unfold latch; split <;> rfl
@[simp] theorem latch_link (d : Descriptor) (s : State) : (latch d s).link = s.link := by
  unfold latch; split <;> rfl
@[simp] theorem latch_host (d : Descriptor) (s : State) : (latch d s).host = s.host := by
  unfold latch; split <;> rfl
@[simp] theorem latch_freeCount (d : Descriptor) (s : State) : (latch d s).freeCount = s.freeCount := by
  unfold latch; split <;> rfl

/-! ### The first frame of a chain (43_framer R188) -/

@[simp] theorem chainInit_cfg (first : Bytes) (s : State) : (chainInit first s).cfg = s.cfg := rfl
@[simp] theorem chainInit_d (first : Bytes) (s : State) : (chainInit first s).d = s.d := rfl
@[simp] theorem chainInit_res (first : Bytes) (s : State) : (chainInit first s).res = s.res := rfl
@[simp] theorem chainInit_phase (first : Bytes) (s : State) : (chainInit first s).phase = s.phase := rfl
@[simp] theorem chainInit_done (first : Bytes) (s : State) : (chainInit first s).done = s.done := rfl
@[simp] theorem chainInit_acc (first : Bytes) (s : State) : (chainInit first s).acc = [] := rfl
@[simp] theorem chainInit_iter (first : Bytes) (s : State) : (chainInit first s).iter = 0 := rfl
@[simp] theorem chainInit_txf (first : Bytes) (s : State) : (chainInit first s).txf = first := rfl
@[simp] theorem chainInit_work (first : Bytes) (s : State) : (chainInit first s).work = s.work := rfl
@[simp] theorem chainInit_link (first : Bytes) (s : State) : (chainInit first s).link = s.link := rfl
@[simp] theorem chainInit_host (first : Bytes) (s : State) : (chainInit first s).host = s.host := rfl
@[simp] theorem chainInit_freeCount (first : Bytes) (s : State) : (chainInit first s).freeCount = s.freeCount := rfl

/-! ### Reset (10_state R36; 70_reset_and_hazards R251) -/

@[simp] theorem resetEngine_cfg (s : State) : (resetEngine s).cfg = s.cfg := rfl
@[simp] theorem resetEngine_d (s : State) : (resetEngine s).d = Descriptor.bare 0x00#8 := rfl
@[simp] theorem resetEngine_res (s : State) : (resetEngine s).res = Result.cleared := rfl
@[simp] theorem resetEngine_phase (s : State) : (resetEngine s).phase = .idle := rfl
@[simp] theorem resetEngine_done (s : State) : (resetEngine s).done = false := rfl
@[simp] theorem resetEngine_acc (s : State) : (resetEngine s).acc = [] := rfl
@[simp] theorem resetEngine_iter (s : State) : (resetEngine s).iter = 0 := rfl
@[simp] theorem resetEngine_txf (s : State) : (resetEngine s).txf = [] := rfl
@[simp] theorem resetEngine_work (s : State) : (resetEngine s).work = CipherWork.cleared := rfl
@[simp] theorem resetEngine_host (s : State) : (resetEngine s).host = s.host := rfl
@[simp] theorem resetEngine_freeCount (s : State) : (resetEngine s).freeCount = s.freeCount := rfl
@[simp] theorem resetEngine_link_sent (s : State) : (resetEngine s).link.sent = s.link.sent := rfl
@[simp] theorem resetEngine_link_outstanding (s : State) : (resetEngine s).link.outstanding = false := rfl
@[simp] theorem resetEngine_link_answers (s : State) :
    (resetEngine s).link.answers = if s.link.outstanding then dropReply s.link.answers else s.link.answers := rfl

end Sys2Proof.Machine
end

