-- ==== Sys2Proof/Safety.lean ====
section
/-!
DEFINITION. The terms the statements use: the kinds of operation, what a result latch may hold, and the invariant of
the engine.
-/

namespace Sys2Proof

/-- The thirteen legal values of `D.OP` (30_encoding R64). -/
def legalCodes : List Byte :=
  [0x10#8, 0x11#8, 0x13#8, 0x20#8, 0x21#8, 0x23#8, 0x25#8, 0x27#8, 0x40#8, 0x42#8, 0x44#8, 0x46#8, 0x48#8]

/-- A cipher operation: one of the eight of the AES and TDES units (30_encoding R61, R64). -/
def Instr.isCipher : Instr → Bool
  | .aesEnc _ _ _ | .aesDec _ _ _ | .aesDecR _ _ _ _ _ | .tdesEnc _ _ _ | .tdesDec _ _ _
  | .tdesDecR _ _ _ _ _ | .tdesDecZ _ _ | .tdesDecZR _ _ _ _ => true
  | .sendCmd _ _ _ | .sendCmdR _ _ _ _ _ | .sendChain _ _ | .sendChainR _ _ _ _ | .sendApduChain _ => false

/-- A chain operation: `SEND_CHAIN`, `SEND_CHAIN_R` or `SEND_APDU_CHAIN` (00_scope R19). -/
def Instr.isChain : Instr → Bool
  | .sendChain _ _ | .sendChainR _ _ _ _ | .sendApduChain _ => true
  | .aesEnc _ _ _ | .aesDec _ _ _ | .aesDecR _ _ _ _ _ | .tdesEnc _ _ _ | .tdesDec _ _ _
  | .tdesDecR _ _ _ _ _ | .tdesDecZ _ _ | .tdesDecZR _ _ _ _ | .sendCmd _ _ _ | .sendCmdR _ _ _ _ _ => false

namespace Machine

/-- The operand error a framer operation ends with before its first exchange, if any; `none` for a cipher operation
(60_exceptions R225). -/
def operandError (i : Instr) (s : State) : Option OpError :=
  match i with
  | .sendCmd msg _ _ => framerError s msg (wholeOf msg)
  | .sendCmdR msg offset length _ _ => framerError s msg ⟨offset, length⟩
  | .sendChain msg _ => framerError s msg (wholeOf msg)
  | .sendChainR msg offset length _ => framerError s msg ⟨offset, length⟩
  | .sendApduChain _ => unitError s
  | .aesEnc _ _ _ | .aesDec _ _ _ | .aesDecR _ _ _ _ _ | .tdesEnc _ _ _ | .tdesDec _ _ _
  | .tdesDecR _ _ _ _ _ | .tdesDecZ _ _ | .tdesDecZR _ _ _ _ => none

/-- The range of the message an operation works on (20_memory R42). -/
def rangeOf : Instr → Range
  | .aesEnc _ _ msg => wholeOf msg
  | .aesDec _ _ msg => wholeOf msg
  | .aesDecR _ _ _ offset length => ⟨offset, length⟩
  | .tdesEnc _ _ msg => wholeOf msg
  | .tdesDec _ _ msg => wholeOf msg
  | .tdesDecR _ _ _ offset length => ⟨offset, length⟩
  | .tdesDecZ _ msg => wholeOf msg
  | .tdesDecZR _ _ offset length => ⟨offset, length⟩
  | .sendCmd msg _ _ => wholeOf msg
  | .sendCmdR _ offset length _ _ => ⟨offset, length⟩
  | .sendChain msg _ => wholeOf msg
  | .sendChainR _ offset length _ => ⟨offset, length⟩
  | .sendApduChain msg => wholeOf msg

/-- In state `s` the step of framer operation `i` performs an exchange of frame `f`: no operand error stops it, the
bound is not reached, and `f` is the operation's first frame, or in a chain under way the frame in `TXF` (43_framer
R181 to R185, R188). -/
def sends (i : Instr) (s : State) (f : Bytes) : Prop :=
  match i with
  | .sendCmd msg cmd _ => s.cfg.hasFramer = true ∧ msg.length ≤ 255 ∧ f = wrap s.cfg cmd msg
  | .sendCmdR msg offset length cmd _ =>
      s.cfg.hasFramer = true ∧ offset + length ≤ msg.length ∧ length ≤ 255 ∧
        f = wrap s.cfg cmd (slice msg offset length)
  | .sendChain msg cmd =>
      s.iter ≠ s.cfg.chainMax ∧
        if s.iter = 0 then s.cfg.hasFramer = true ∧ msg.length ≤ 255 ∧ f = wrap s.cfg cmd msg else f = s.txf
  | .sendChainR msg offset length cmd =>
      s.iter ≠ s.cfg.chainMax ∧
        if s.iter = 0 then s.cfg.hasFramer = true ∧ offset + length ≤ msg.length ∧ length ≤ 255 ∧
          f = wrap s.cfg cmd (slice msg offset length) else f = s.txf
  | .sendApduChain apdu =>
      s.iter ≠ s.cfg.chainMax ∧ if s.iter = 0 then s.cfg.hasFramer = true ∧ f = apdu else f = s.txf
  | .aesEnc _ _ _ | .aesDec _ _ _ | .aesDecR _ _ _ _ _ | .tdesEnc _ _ _ | .tdesDec _ _ _
  | .tdesDecR _ _ _ _ _ | .tdesDecZ _ _ | .tdesDecZR _ _ _ _ => False

/-- The link after a whole exchange of frame `f`: its answer was taken, `rest` is still to come, and `f` was handed
over once, now or, where an exchange was outstanding, before (60_exceptions R234). -/
def Link.exchanged (l : Link) (f : Bytes) (rest : List Answer) : Link :=
  { answers := rest, sent := if l.outstanding then l.sent else l.sent ++ [f], outstanding := false }

/-- The latched descriptor asks for a framer operation whose operands pass every check; `chain` says whether it is a
chain operation. -/
def framerReady (chain : Bool) (s : State) : Prop :=
  ∃ i, decode s.d = .ok i ∧ i.isCipher = false ∧ i.isChain = chain ∧ operandError i s = none

/-- What `RES` may hold (10_state R28; 60_exceptions R221, R226, R239): on success no context values; otherwise the
code of a cause and no data. -/
def Result.legal (r : Result) : Prop :=
  (r.code = 0x00#8 ∧ r.expected = 0 ∧ r.actual = 0) ∨ (∃ c : Cause, r.code = c.code ∧ r.data = [])

/-- `RES.expected` and `RES.actual` fit the widths 10_state R28 gives them (log 3). -/
def Result.fits (p : Params) (r : Result) : Prop :=
  r.expected < 2 ^ max 16 p.lenW ∧ r.actual < 2 ^ max 16 (p.lenW + 1)

/-- The invariant of the engine, in every state of any run, whatever the host and the collaborator do. -/
structure Inv (s : State) : Prop where
  /-- `CHAIN_MAX >= 1` (00_scope R9). -/
  paramsOk : s.cfg.wf = true
  /-- The latch holds a descriptor that can be presented (10_state R23, R24). -/
  latchFits : s.d.presentable s.cfg = true
  /-- `RES` holds a result some rule writes (60_exceptions R221). -/
  resLegal : Result.legal s.res
  /-- `DONE` is true only when `PHASE = IDLE` (10_state R29). -/
  doneIdle : s.done = true → s.phase = .idle
  /-- IDLE with `DONE` false is 'no result yet': `RES` has its reset value (10_state R29, R36). -/
  noResultYet : s.phase = .idle → s.done = false → s.res = Result.cleared
  /-- The cipher working state is cleared between steps (10_state R31). -/
  workCleared : s.work = CipherWork.cleared
  /-- The framer working state is discarded outside an operation (10_state R30). -/
  idleDiscarded : s.phase = .idle → s.acc = [] ∧ s.iter = 0 ∧ s.txf = []
  /-- `ITER` is 0 to `CHAIN_MAX` (10_state R30). -/
  iterBound : s.iter ≤ s.cfg.chainMax
  /-- `ACC` never exceeds `ITER * (FRAME_MAX - 2)` bytes, hence R30's bound. -/
  accBound : s.acc.length ≤ s.iter * (s.cfg.frameMax - 2)
  /-- After the first exchange of a chain the next frame is the continuation frame (43_framer R188). -/
  continuing : s.iter ≠ 0 → s.phase = .busy ∧ framerReady true s ∧ s.txf = contFrame s.cfg
  /-- An exchange is outstanding only while a framer operation is in progress that passed its checks and has not
  reached its bound (60_exceptions R234; 43_framer R189). -/
  outstandingBusy : s.link.outstanding = true →
    s.phase = .busy ∧ (framerReady false s ∨ (framerReady true s ∧ s.iter < s.cfg.chainMax))

end Machine
end Sys2Proof
end

