-- ==== Sys2Proof/Laws/Ops.lean ====
section
/-!
SUPPORT. For each shared operation, once, everything it can do: later proofs cite these lemmas and do not unfold the
operation.
-/

namespace Sys2Proof.Machine

/-! ### Byte spaces -/

/-- `MemRead` inside the space is the range; it is defined there and only there (20_memory R41). -/
theorem memRead_eq_some {m : Memory} {a n : Nat} {v : Bytes} :
    memRead m a n = some v ↔ a + n ≤ m.length ∧ v = slice m a n := by
  unfold memRead; split <;> simp_all [eq_comm]

/-- Reading all of a message space gives the message (20_memory R42). -/
@[simp] theorem memRead_whole (m : Memory) : memRead m 0 m.length = some m := by simp [memRead]

/-- What `MemRead` gives fits the space it was read from. -/
theorem memRead_wf {p : Params} {m : Memory} {a n : Nat} {v : Bytes} (hm : m.wf p)
    (h : memRead m a n = some v) : Memory.wf p v := by
  obtain ⟨hb, rfl⟩ := memRead_eq_some.mp h
  simp only [Memory.wf, slice_length] at hm ⊢
  omega

/-- `MemWrite` keeps a space within its bound when the bytes it places end within it. -/
theorem memWrite_wf {p : Params} {m : Memory} {a : Nat} {v : Bytes} (hm : m.wf p)
    (hv : a + v.length < 2 ^ p.lenW) : Memory.wf p (memWrite m a v) := by
  simp only [Memory.wf, memWrite, List.length_append, List.length_take, List.length_drop, zeros_length] at hm ⊢
  omega

/-- The message space and the result space are within their bound at reset (10_state R36). -/
theorem reset_memory_wf : Memory.wf State.reset.cfg State.reset.d.msg ∧
    Memory.wf State.reset.cfg State.reset.res.data := by
  constructor <;> simp [State.reset, Descriptor.bare, Result.cleared]

/-! ### Operand checks -/

/-- The checks of a cipher operation pass exactly when the four conditions of 40_cipher_common R92 to R95 hold. -/
theorem cipherError_eq_none {C : Cipher} {iv key msg : Bytes} {rg : Range} :
    cipherError C iv key msg rg = none ↔
      key.length = C.keyLen ∧ iv.length = C.block ∧ rg.off + rg.len ≤ msg.length ∧ rg.len % C.block = 0 := by
  unfold cipherError
  repeat' split
  all_goals simp_all

/-- The checks of a wrapping framer operation pass exactly when the unit is there, the range is in bounds and Lc can
state it (43_framer R180; 20_memory R42; 30_encoding R77). -/
theorem framerError_eq_none {s : State} {msg : Bytes} {rg : Range} :
    framerError s msg rg = none ↔
      s.cfg.hasFramer = true ∧ rg.off + rg.len ≤ msg.length ∧ rg.len ≤ Config.lcMax := by
  unfold framerError
  repeat' split
  all_goals simp_all

theorem unitError_eq_none {s : State} : unitError s = none ↔ s.cfg.hasFramer = true := by
  unfold unitError; split <;> simp_all

/-! ### The shared steps of the operations -/

/-- A cipher operation always answers a next state: the first failing check raises, otherwise it completes with the
recurrence on the range (40_cipher_common R91). -/
theorem cipherOp_eq (C : Cipher) (dir : Dir) (iv key msg : Bytes) (rg : Range) (s : State) :
    cipherOp C dir iv key msg rg s = .next
      (match cipherError C iv key msg rg with
       | some e => raise e s
       | none => finish (cbcRun C dir iv key (slice msg rg.off rg.len)).1 s) := by
  unfold cipherOp
  cases h : cipherError C iv key msg rg with
  | some e => rfl
  | none =>
    obtain ⟨-, -, hr, -⟩ := cipherError_eq_none.mp h
    simp [memRead, hr, cipherRun, finish]

/-- A single-exchange operation always answers a next state (43_framer R181, R182). -/
theorem sendSingle_eq (msg : Bytes) (rg : Range) (cmd : Byte) (expect : BitVec 16) (s : State) :
    sendSingle msg rg cmd expect s = .next
      (match framerError s msg rg with
       | some e => raise e s
       | none => singleStep expect { s with txf := wrap s.cfg cmd (slice msg rg.off rg.len) }) := by
  unfold sendSingle
  cases h : framerError s msg rg with
  | some e => rfl
  | none =>
    obtain ⟨-, hr, -⟩ := framerError_eq_none.mp h
    simp [memRead, hr]

/-- A wrapping chain operation always answers a next state (43_framer R183, R184). -/
theorem sendChained_eq (msg : Bytes) (rg : Range) (cmd : Byte) (s : State) :
    sendChained msg rg cmd s = .next
      (if s.iter = 0 then
        match framerError s msg rg with
        | some e => raise e s
        | none => chainStep (chainInit (wrap s.cfg cmd (slice msg rg.off rg.len)) s)
       else chainStep s) := by
  unfold sendChained
  split
  · cases h : framerError s msg rg with
    | some e => rfl
    | none =>
      obtain ⟨-, hr, -⟩ := framerError_eq_none.mp h
      simp [memRead, hr]
  · rfl

/-- `SEND_APDU_CHAIN` always answers a next state (43_framer R185). -/
theorem execSendApduChain_eq (msg : Bytes) (s : State) :
    execSendApduChain msg s = .next
      (if s.iter = 0 then
        match unitError s with
        | some e => raise e s
        | none => chainStep (chainInit msg s)
       else chainStep s) := by
  unfold execSendApduChain
  split
  · cases unitError s <;> rfl
  · rfl

/-! ### The exchange -/

@[simp] theorem handOver_outstanding (f : Bytes) (l : Link) : (l.handOver f).outstanding = true := by
  unfold Link.handOver; split <;> simp_all

@[simp] theorem handOver_answers (f : Bytes) (l : Link) : (l.handOver f).answers = l.answers := by
  unfold Link.handOver; split <;> rfl

/-- A frame is handed over once: nothing more is sent while an exchange is outstanding (60_exceptions R234). -/
theorem handOver_sent (f : Bytes) (l : Link) :
    (l.handOver f).sent = if l.outstanding then l.sent else l.sent ++ [f] := by
  unfold Link.handOver; split <;> rfl

/-- Everything an exchange can do: it touches the link and the free-value counter only, it hands the frame over, and
it waits, gets a response no longer than `FRAME_MAX`, or fails (00_scope R9, R16). -/
theorem exchange_cases {f : Bytes} {s t : State} {rep : Reply} (h : exchange f s = (rep, t)) :
    (rep = .waiting ∧ (s.link.answers = [] ∧ t = { s with link := s.link.handOver f } ∨
      ∃ rest, s.link.answers = .silent :: rest ∧
        t = { s with link := { s.link.handOver f with answers := rest } })) ∨
    (∃ r rest, rep = .ok r ∧ s.link.answers = .ok r :: rest ∧ r.length ≤ s.cfg.frameMax ∧
      t = { s with link := { s.link.handOver f with answers := rest, outstanding := false } }) ∨
    (∃ reason rest, rep = .fail reason ∧ s.link.answers = .fail reason :: rest ∧
      t = { s with link := { s.link.handOver f with answers := rest, outstanding := false } }) ∨
    (∃ r rest, rep = .fail (Config.overlongReason s.freeCount) ∧ s.link.answers = .ok r :: rest ∧
      s.cfg.frameMax < r.length ∧
      t = { s with link := { s.link.handOver f with answers := rest, outstanding := false },
                   freeCount := s.freeCount + 1 }) := by
  unfold exchange at h
  simp only [handOver_answers] at h
  cases ha : s.link.answers with
  | nil => simp only [ha, Prod.mk.injEq] at h; exact .inl ⟨h.1.symm, .inl ⟨rfl, h.2.symm⟩⟩
  | cons a rest =>
    cases a with
    | silent => simp only [ha, Prod.mk.injEq] at h; exact .inl ⟨h.1.symm, .inr ⟨rest, rfl, h.2.symm⟩⟩
    | fail reason =>
      simp only [ha, Prod.mk.injEq] at h
      exact .inr (.inr (.inl ⟨reason, rest, h.1.symm, rfl, h.2.symm⟩))
    | ok r =>
      simp only [ha] at h
      split at h
      · next hl =>
        simp only [Prod.mk.injEq] at h
        exact .inr (.inl ⟨r, rest, h.1.symm, rfl, hl, h.2.symm⟩)
      · next hl =>
        simp only [Prod.mk.injEq] at h
        exact .inr (.inr (.inr ⟨r, rest, h.1.symm, rfl, by omega, h.2.symm⟩))

/-- What a single exchange makes of its response (43_framer R181). -/
theorem singleReply_cases (expect : BitVec 16) (r : Bytes) (s : State) :
    (r.length < 2 ∧ singleReply expect r s = raise ⟨.shortResponse, 2, r.length⟩ s) ∨
    (∃ data sw, split r = some (data, sw) ∧
      ((sw = expect ∧ singleReply expect r s = finish data s) ∨
       (sw ≠ expect ∧ singleReply expect r s = raise ⟨.unexpectedStatus, expect.toNat, sw.toNat⟩ s))) := by
  unfold singleReply
  cases h : split r with
  | none => exact .inl ⟨split_none.mp h, rfl⟩
  | some p =>
    obtain ⟨data, sw⟩ := p
    refine .inr ⟨data, sw, rfl, ?_⟩
    by_cases he : sw = expect <;> simp [he]

/-- What the chain loop makes of a response (43_framer R188, R195). -/
theorem chainReply_cases (r : Bytes) (s : State) :
    (r.length < 2 ∧ chainReply r s = raise ⟨.shortResponse, 2, r.length⟩ s) ∨
    (∃ data sw, split r = some (data, sw) ∧
      ((sw = 0x91AF#16 ∧ chainReply r s = { s with acc := s.acc ++ data, txf := contFrame s.cfg }) ∨
       (sw = 0x9100#16 ∧ chainReply r s = finish (s.acc ++ data) s) ∨
       (sw ≠ 0x91AF#16 ∧ sw ≠ 0x9100#16 ∧
         chainReply r s = raise ⟨.unexpectedStatus, 0x9100, sw.toNat⟩ s))) := by
  unfold chainReply
  cases h : split r with
  | none => exact .inl ⟨split_none.mp h, rfl⟩
  | some p =>
    obtain ⟨data, sw⟩ := p
    refine .inr ⟨data, sw, rfl, ?_⟩
    by_cases h1 : sw = 0x91AF#16
    · exact .inl ⟨h1, by simp [chainStatus, h1, Config.swMoreData]⟩
    · by_cases h2 : sw = 0x9100#16
      · exact .inr (.inl ⟨h2, by simp [chainStatus, h2, Config.swMoreData, Config.swOperationOk]⟩)
      · exact .inr (.inr ⟨h1, h2, by
          simp [chainStatus, h1, h2, Config.swMoreData, Config.swOperationOk]⟩)

/-! ### The host's actions and the turn -/

/-- START has its effect exactly when the engine is idle and the descriptor can be presented; otherwise it has none
(70_reset_and_hazards R253, R255; 10_state R23). -/
theorem start_cases (d : Descriptor) (s : State) :
    (s.phase = .idle ∧ d.presentable s.cfg = true ∧ start d s = latch d s) ∨
    (¬ (s.phase = .idle ∧ d.presentable s.cfg = true) ∧ start d s = s) := by
  by_cases h : s.phase = .idle ∧ d.presentable s.cfg = true
  · exact .inl ⟨h.1, h.2, by simp [start, h]⟩
  · exact .inr ⟨h, by simp only [start]; rw [if_neg h]⟩

/-- Everything one step of the machine can do: the host's next action, or the engine's own step (00_scope R11; log 6). -/
theorem step_cases (s : State) :
    (∃ d rest, s.host = .start d :: rest ∧ step s = .next (start d { s with host := rest })) ∨
    (∃ rest, s.host = .reset :: rest ∧ step s = .next (resetEngine { s with host := rest })) ∨
    (∃ rest, s.host = .wait :: rest ∧ step s = engineStep { s with host := rest }) ∨
    (s.host = [] ∧ step s = engineStep s) := by
  unfold step turn
  cases h : s.host with
  | nil => simp
  | cons a rest => cases a <;> simp

/-- Everything the engine's own step can do (70_reset_and_hazards R262; 30_encoding R65). -/
theorem engineStep_cases (s : State) :
    (s.phase = .idle ∧ engineStep s = .next s) ∨
    (∃ i, s.phase = .busy ∧ decode s.d = .ok i ∧ engineStep s = exec i s) ∨
    (∃ e, s.phase = .busy ∧ decode s.d = .error e ∧ engineStep s = .next (raiseIllegalOp s)) := by
  unfold engineStep
  cases hp : s.phase with
  | idle => simp
  | busy => cases hd : decode s.d <;> simp

end Sys2Proof.Machine
end

