-- ==== Sys2Proof/Laws/Framer.lean ====
section
/-!
SUPPORT. The framer's shared steps, each with everything it can do, and which of them an operation that performs an
exchange runs.
-/

namespace Sys2Proof.Machine

/-- The value of a status word, first byte high (20_memory R47). -/
theorem u16be_toNat (h l : Byte) : (u16be h l).toNat = 256 * h.toNat + l.toNat := by
  have e : (h ++ l).toNat = h.toNat <<< 8 ||| l.toNat := BitVec.toNat_append ..
  rw [u16be, e, ← Nat.shiftLeft_add_eq_or_of_lt l.isLt, Nat.shiftLeft_eq]
  omega

/-- A status word is one value exactly when its two bytes are that value's bytes (20_memory R47). -/
theorem u16be_eq_iff {h l h' l' : Byte} {w : BitVec 16} (e : w.toNat = 256 * h'.toNat + l'.toNat) :
    u16be h l = w ↔ h = h' ∧ l = l' := by
  rw [← BitVec.toNat_inj, u16be_toNat, e, ← BitVec.toNat_inj, ← BitVec.toNat_inj]
  have := h.isLt
  have := l.isLt
  have := h'.isLt
  have := l'.isLt
  omega

/-! ### An exchange that is answered in this step -/

@[simp] theorem exchanged_answers (l : Link) (f : Bytes) (rest : List Answer) :
    (l.exchanged f rest).answers = rest := rfl

@[simp] theorem exchanged_outstanding (l : Link) (f : Bytes) (rest : List Answer) :
    (l.exchanged f rest).outstanding = false := rfl

/-- The link of a whole exchange is the frame handed over and the answer taken. -/
theorem exchanged_eq_handOver (l : Link) (f : Bytes) (rest : List Answer) :
    l.exchanged f rest = { l.handOver f with answers := rest, outstanding := false } := by
  simp [Link.exchanged, handOver_sent]

/-- A response no longer than `FRAME_MAX`, whether or not the frame was handed over before (00_scope R9, R16). -/
theorem exchange_ok {f r : Bytes} {rest : List Answer} {s : State} (ha : s.link.answers = .ok r :: rest)
    (hr : r.length ≤ s.cfg.frameMax) : exchange f s = (.ok r, { s with link := s.link.exchanged f rest }) := by
  simp [exchange, ha, hr, exchanged_eq_handOver]

/-- A failure (00_scope R16). -/
theorem exchange_fail {f : Bytes} {reason : BitVec 16} {rest : List Answer} {s : State}
    (ha : s.link.answers = .fail reason :: rest) :
    exchange f s = (.fail reason, { s with link := s.link.exchanged f rest }) := by
  simp [exchange, ha, exchanged_eq_handOver]

/-- A response longer than `FRAME_MAX` (00_scope R9; log 5). -/
theorem exchange_overlong {f r : Bytes} {rest : List Answer} {s : State} (ha : s.link.answers = .ok r :: rest)
    (hr : s.cfg.frameMax < r.length) : exchange f s =
      (.fail (Config.overlongReason s.freeCount),
        { s with link := s.link.exchanged f rest, freeCount := s.freeCount + 1 }) := by
  simp [exchange, ha, Nat.not_le.mpr hr, exchanged_eq_handOver]

/-! ### The framer's steps -/

/-- Everything the step of a single-exchange operation can do, once its frame is in `TXF` (43_framer R181). -/
theorem singleStep_cases (expect : BitVec 16) (s : State) :
    ∃ rep t, exchange s.txf s = (rep, t) ∧
      ((rep = .waiting ∧ singleStep expect s = t) ∨
       (∃ reason, rep = .fail reason ∧ singleStep expect s = raise ⟨.exchangeFailed, 0, reason.toNat⟩ t) ∨
       (∃ r, rep = .ok r ∧ singleStep expect s = singleReply expect r t)) := by
  rcases h : exchange s.txf s with ⟨rep, t⟩
  refine ⟨rep, t, rfl, ?_⟩
  cases rep <;> simp [singleStep, h]

/-- Everything a pass of the chain loop can do (43_framer R188, R189, R191). -/
theorem chainStep_cases (s : State) :
    (s.iter = s.cfg.chainMax ∧ chainStep s = raise ⟨.chainTooLong, s.cfg.chainMax, s.cfg.chainMax⟩ s) ∨
    (s.iter ≠ s.cfg.chainMax ∧ ∃ rep t, exchange s.txf s = (rep, t) ∧
      ((rep = .waiting ∧ chainStep s = t) ∨
       (∃ reason, rep = .fail reason ∧ chainStep s = raise ⟨.exchangeFailed, 0, reason.toNat⟩ t) ∨
       (∃ r, rep = .ok r ∧ chainStep s = chainReply r { t with iter := t.iter + 1 }))) := by
  by_cases hb : s.iter = s.cfg.chainMax
  · exact .inl ⟨hb, by simp [chainStep, hb]⟩
  · rcases h : exchange s.txf s with ⟨rep, t⟩
    refine .inr ⟨hb, rep, t, rfl, ?_⟩
    cases rep <;> simp [chainStep, hb, h]

/-- `SEND_CMD` with good operands runs the single step with its frame in `TXF` (43_framer R181). -/
theorem execSendCmd_sends {msg f : Bytes} {cmd : Byte} {expect : BitVec 16} {s : State}
    (h : sends (.sendCmd msg cmd expect) s f) :
    exec (.sendCmd msg cmd expect) s = .next (singleStep expect { s with txf := f }) := by
  obtain ⟨hf, hl, rfl⟩ := h
  have he : framerError s msg (wholeOf msg) = none := framerError_eq_none.mpr ⟨hf, by simp, hl⟩
  simp [exec, execSendCmd, sendSingle_eq, he]

/-- `SEND_CMD_R` with good operands runs the single step with its frame in `TXF` (43_framer R182). -/
theorem execSendCmdR_sends {msg f : Bytes} {o n : Nat} {cmd : Byte} {expect : BitVec 16} {s : State}
    (h : sends (.sendCmdR msg o n cmd expect) s f) :
    exec (.sendCmdR msg o n cmd expect) s = .next (singleStep expect { s with txf := f }) := by
  obtain ⟨hf, hr, hl, rfl⟩ := h
  have he : framerError s msg ⟨o, n⟩ = none := framerError_eq_none.mpr ⟨hf, hr, hl⟩
  simp [exec, execSendCmdR, sendSingle_eq, he]

/-- A chain operation that sends a frame runs a pass of the chain loop: on the initialised loop before its first
exchange has returned, on the loop as it stands after it; and the bound is not reached (43_framer R183 to R185). -/
theorem exec_chain_sends {i : Instr} {f : Bytes} {s : State} (hi : i.isChain = true) (h : sends i s f) :
    s.iter ≠ s.cfg.chainMax ∧ (s.iter ≠ 0 → f = s.txf) ∧
      exec i s = .next (chainStep (if s.iter = 0 then chainInit f s else s)) := by
  cases i with
  | sendChain msg cmd =>
    obtain ⟨hb, h⟩ := h
    by_cases hz : s.iter = 0
    · obtain ⟨hf, hl, rfl⟩ := if_pos (c := s.iter = 0) hz ▸ h
      have he : framerError s msg (wholeOf msg) = none := framerError_eq_none.mpr ⟨hf, by simp, hl⟩
      exact ⟨hb, fun hn => absurd hz hn, by simp [exec, execSendChain, sendChained_eq, he, hz]⟩
    · exact ⟨hb, fun _ => by simpa [hz] using h, by simp [exec, execSendChain, sendChained_eq, hz]⟩
  | sendChainR msg o n cmd =>
    obtain ⟨hb, h⟩ := h
    by_cases hz : s.iter = 0
    · obtain ⟨hf, hr, hl, rfl⟩ := if_pos (c := s.iter = 0) hz ▸ h
      have he : framerError s msg ⟨o, n⟩ = none := framerError_eq_none.mpr ⟨hf, hr, hl⟩
      exact ⟨hb, fun hn => absurd hz hn, by simp [exec, execSendChainR, sendChained_eq, he, hz]⟩
    · exact ⟨hb, fun _ => by simpa [hz] using h, by simp [exec, execSendChainR, sendChained_eq, hz]⟩
  | sendApduChain apdu =>
    obtain ⟨hb, h⟩ := h
    by_cases hz : s.iter = 0
    · obtain ⟨hf, rfl⟩ := if_pos (c := s.iter = 0) hz ▸ h
      exact ⟨hb, fun hn => absurd hz hn,
        by simp [exec, execSendApduChain_eq, unitError_eq_none.mpr hf, hz]⟩
    · exact ⟨hb, fun _ => by simpa [hz] using h, by simp [exec, execSendApduChain_eq, hz]⟩
  | aesEnc _ _ _ | aesDec _ _ _ | aesDecR _ _ _ _ _ | tdesEnc _ _ _ | tdesDec _ _ _ | tdesDecR _ _ _ _ _
  | tdesDecZ _ _ | tdesDecZR _ _ _ _ | sendCmd _ _ _ | sendCmdR _ _ _ _ _ => simp [Instr.isChain] at hi

end Sys2Proof.Machine
end

