-- ==== Sys2Proof/Certificates/Slice0/Obligations.lean ====
section
/-!
DEFINITION. The statements for the provers. Each says what a numbered rule of the spec, or several of them, make of
the model; OBLIGATIONS.json lists them with their grounds. A completion is written
`complete ⟨code, expected, actual, data⟩ s`, whose meaning field by field is `CompletionEffect`.
-/

open Sys2Proof Sys2Proof.Machine

/-! ### Encoding -/

/-- The thirteen codes of 30_encoding R64 decode to their operations, each with the fields R66 gives it. -/
def Obligations.TabledCodesDecode : Prop :=
  ∀ (iv key msg : Bytes) (o n : Nat) (c : Byte) (e : BitVec 16),
    decode ⟨0x10#8, iv, key, msg, o, n, c, e⟩ = .ok (.aesEnc iv key msg) ∧
    decode ⟨0x11#8, iv, key, msg, o, n, c, e⟩ = .ok (.aesDec iv key msg) ∧
    decode ⟨0x13#8, iv, key, msg, o, n, c, e⟩ = .ok (.aesDecR iv key msg o n) ∧
    decode ⟨0x20#8, iv, key, msg, o, n, c, e⟩ = .ok (.tdesEnc iv key msg) ∧
    decode ⟨0x21#8, iv, key, msg, o, n, c, e⟩ = .ok (.tdesDec iv key msg) ∧
    decode ⟨0x23#8, iv, key, msg, o, n, c, e⟩ = .ok (.tdesDecR iv key msg o n) ∧
    decode ⟨0x25#8, iv, key, msg, o, n, c, e⟩ = .ok (.tdesDecZ key msg) ∧
    decode ⟨0x27#8, iv, key, msg, o, n, c, e⟩ = .ok (.tdesDecZR key msg o n) ∧
    decode ⟨0x40#8, iv, key, msg, o, n, c, e⟩ = .ok (.sendCmd msg c e) ∧
    decode ⟨0x42#8, iv, key, msg, o, n, c, e⟩ = .ok (.sendCmdR msg o n c e) ∧
    decode ⟨0x44#8, iv, key, msg, o, n, c, e⟩ = .ok (.sendChain msg c) ∧
    decode ⟨0x46#8, iv, key, msg, o, n, c, e⟩ = .ok (.sendChainR msg o n c) ∧
    decode ⟨0x48#8, iv, key, msg, o, n, c, e⟩ = .ok (.sendApduChain msg)

/-- The decoder and the encoder are inverse (30_encoding R64, R66): every operation is read back from its descriptor
with every operand, a decoded operation has the descriptor's code and operands that could be presented, and an
operation is well formed exactly when its descriptor can be presented. -/
def Obligations.DecodeEncodeInverse : Prop :=
  (∀ i : Instr, decode (encode i) = .ok i) ∧
  (∀ (d : Descriptor) (i : Instr), decode d = .ok i →
    (encode i).op = d.op ∧ ∀ p : Params, d.presentable p = true → i.wf p = true) ∧
  (∀ (p : Params) (i : Instr), i.wf p = (encode i).presentable p)

/-- 243 codes are reserved, and a reserved code ends the operation at once with OperandError 0x41, whatever the other
fields hold (30_encoding R65). -/
def Obligations.ReservedCodeIsIllegalOp : Prop :=
  ((List.range 256).filter fun n => BitVec.ofNat 8 n ∉ legalCodes).length = 243 ∧
  ∀ s : State, s.phase = .busy → s.host = [] → s.d.op ∉ legalCodes →
    step s = .next (complete ⟨0x41#8, 0, s.d.op.toNat, []⟩ s)

/-- A field an operation does not use is ignored (30_encoding R66, R67): with another value in it the descriptor
decodes to the same operation, and a step of the busy engine does the same, but for the latch, which keeps that value.
A field is unused where R66 marks it so; a reserved code uses none. -/
def Obligations.UnusedFieldsAreIgnored : Prop :=
  ∀ (d : Descriptor) (b : Bytes) (o n : Nat) (c : Byte) (e : BitVec 16) (s t : State),
    s.phase = .busy → s.host = [] → step { s with d := d } = .next t →
    let ignored := fun d' : Descriptor => decode d' = decode d ∧ step { s with d := d' } = .next { t with d := d' }
    (d.op ∉ [0x10#8, 0x11#8, 0x13#8, 0x20#8, 0x21#8, 0x23#8] → ignored { d with iv := b }) ∧
    (d.op ∉ [0x10#8, 0x11#8, 0x13#8, 0x20#8, 0x21#8, 0x23#8, 0x25#8, 0x27#8] → ignored { d with key := b }) ∧
    (d.op ∉ legalCodes → ignored { d with msg := b }) ∧
    (d.op ∉ [0x13#8, 0x23#8, 0x27#8, 0x42#8, 0x46#8] → ignored { d with offset := o, length := n }) ∧
    (d.op ∉ [0x40#8, 0x42#8, 0x44#8, 0x46#8] → ignored { d with cmd := c }) ∧
    (d.op ∉ [0x40#8, 0x42#8] → ignored { d with expect := e })

/-! ### The step, the handshake, reset -/

/-- A step of a busy engine is the meaning of the operation its descriptor decodes to: nothing is added around it, no
program counter moves (10_state R34); the host's turn to wait is used up. -/
def Obligations.StepRunsDecodedOperation : Prop :=
  ∀ (s : State) (i : Instr), s.phase = .busy → decode s.d = .ok i →
    (s.host = [] → step s = exec i s) ∧
    (∀ rest, s.host = .wait :: rest → step s = exec i { s with host := rest })

/-- START of an idle engine (70_reset_and_hazards R253): the descriptor is copied whole, unchecked, `DONE` falls, the
engine is busy, and for a code with high nibble 4 the framer working state is cleared; nothing else changes. -/
def Obligations.StartEffect : Prop :=
  ∀ (d : Descriptor) (s : State) (rest : List HostAction),
    s.phase = .idle → d.presentable s.cfg = true → s.host = .start d :: rest →
    step s = .next
      (if d.op.toNat / 16 = 4 then
        { s with host := rest, d := d, done := false, phase := .busy, acc := [], iter := 0, txf := [] }
       else { s with host := rest, d := d, done := false, phase := .busy })

/-- START while BUSY has no effect at all: the refused descriptor is lost (70_reset_and_hazards R255). The same of a
descriptor the carrier cannot present (10_state R23; log 13). -/
def Obligations.StartRefused : Prop :=
  ∀ (d : Descriptor) (s : State) (rest : List HostAction), s.host = .start d :: rest →
    s.phase = .busy ∨ d.presentable s.cfg = false → step s = .next { s with host := rest }

/-- An idle engine does nothing by itself, and goes on doing nothing: after a reset no exchange of the abandoned
operation is issued (70_reset_and_hazards R251). -/
def Obligations.IdleEngineDoesNothing : Prop :=
  ∀ s : State, s.phase = .idle → s.host = [] → ∀ n, Host.Core.run Sys2Proof.core n s = .next s

/-- The state after reset has the values 10_state R36 gives; nothing is said of the five fields it leaves
unspecified. -/
def Obligations.ResetValues : Prop :=
  State.reset.phase = .idle ∧ State.reset.done = false ∧ State.reset.res.code = 0x00#8 ∧
  State.reset.res.expected = 0 ∧ State.reset.res.actual = 0 ∧ State.reset.res.data = [] ∧
  State.reset.d.iv = [] ∧ State.reset.d.key = [] ∧ State.reset.d.msg = [] ∧
  State.reset.acc = [] ∧ State.reset.txf = [] ∧ State.reset.iter = 0 ∧
  State.reset.work.chain = [] ∧ State.reset.work.index = 0

/-- Reset at any moment (70_reset_and_hazards R250, R251): the engine has its reset values whatever it was doing, the
exchanges that happened are not undone, and of an exchange that had been handed over the answer is dropped: with the
collaborator's future being silences, then that answer `a`, then `later`, only `later` remains (log 8). -/
def Obligations.ResetAbandonsOperation : Prop :=
  ∀ (s : State) (rest : List HostAction), s.host = .reset :: rest →
    ∃ t, step s = .next t ∧ t.phase = .idle ∧ t.done = false ∧ t.res = ⟨0x00#8, 0, 0, []⟩ ∧
      t.d.iv = [] ∧ t.d.key = [] ∧ t.d.msg = [] ∧ t.acc = [] ∧ t.iter = 0 ∧ t.txf = [] ∧
      t.work = ⟨[], 0⟩ ∧ t.cfg = s.cfg ∧ t.host = rest ∧ t.link.sent = s.link.sent ∧
      t.link.outstanding = false ∧
      (s.link.outstanding = false → t.link.answers = s.link.answers) ∧
      (∀ k a later, s.link.outstanding = true → a ≠ .silent →
        s.link.answers = List.replicate k .silent ++ a :: later → t.link.answers = later)

/-- Completion, field by field, by `done` and by `raise`: `RES` takes its four fields, the working state is discarded,
`PHASE` returns to IDLE, `DONE` rises, and nothing else changes (60_exceptions R226; 70_reset_and_hazards R254). -/
def Obligations.CompletionEffect : Prop :=
  ∀ s : State,
    (∀ r : Result, complete r s =
      { s with res := r, acc := [], iter := 0, txf := [], work := ⟨[], 0⟩, phase := .idle, done := true }) ∧
    (∀ e : OpError, raise e s = complete ⟨e.cause.code, e.expected, e.actual, []⟩ s) ∧
    (∀ data : Bytes, finish data s = complete ⟨0x00#8, 0, 0, data⟩ s)

/-- The code and the class of every cause, and the class a code's high nibble names: 0x0 OK, 0x1 `CipherError`, 0x2
`ProtocolError`, 0x3 `TransportError`, 0x4 `OperandError` (60_exceptions R220, R221; 10_state R28). -/
def Obligations.CauseCodes : Prop :=
  (Cause.invalidKeySize.code = 0x11#8 ∧ Cause.invalidKeySize.cls = .cipher) ∧
  (Cause.invalidIvSize.code = 0x12#8 ∧ Cause.invalidIvSize.cls = .cipher) ∧
  (Cause.invalidBlockLength.code = 0x13#8 ∧ Cause.invalidBlockLength.cls = .cipher) ∧
  (Cause.unexpectedStatus.code = 0x21#8 ∧ Cause.unexpectedStatus.cls = .protocol) ∧
  (Cause.chainTooLong.code = 0x22#8 ∧ Cause.chainTooLong.cls = .protocol) ∧
  (Cause.shortResponse.code = 0x23#8 ∧ Cause.shortResponse.cls = .protocol) ∧
  (Cause.exchangeFailed.code = 0x31#8 ∧ Cause.exchangeFailed.cls = .transport) ∧
  (Cause.illegalOp.code = 0x41#8 ∧ Cause.illegalOp.cls = .operand) ∧
  (Cause.rangeOutOfBounds.code = 0x42#8 ∧ Cause.rangeOutOfBounds.cls = .operand) ∧
  (Cause.paramTooLong.code = 0x43#8 ∧ Cause.paramTooLong.cls = .operand) ∧
  (Cause.unitAbsent.code = 0x44#8 ∧ Cause.unitAbsent.cls = .operand) ∧
  ∀ code : Byte, codeClass code =
    (if code.toNat / 16 = 0 then some .ok else if code.toNat / 16 = 1 then some .cipher
     else if code.toNat / 16 = 2 then some .protocol else if code.toNat / 16 = 3 then some .transport
     else if code.toNat / 16 = 4 then some .operand else none)

/-- What the host can read: `RES` only when the engine is idle, and never anything of the descriptor latch or the
working state (10_state R27, R28, R29; 60_exceptions R236). -/
def Obligations.HostSeesOnlyTheResult : Prop :=
  ∀ s : State,
    (s.phase = .busy → hostView s = ⟨.busy, s.done, none⟩) ∧
    (s.phase = .idle → hostView s = ⟨.idle, s.done, some s.res⟩) ∧
    (∀ (d : Descriptor) (acc txf : Bytes) (iter : Nat) (w : CipherWork),
      hostView { s with d := d, acc := acc, txf := txf, iter := iter, work := w } = hostView s)

/-! ### Cipher operations -/

/-- The AES operations complete, under any key and IV contents, with the CBC result of the range (41_aes R110 to
R112). -/
def Obligations.AesOperationsComplete : Prop :=
  ∀ (iv key msg : Bytes) (s : State), key.length = 16 → iv.length = 16 →
    (msg.length % 16 = 0 →
      exec (.aesEnc iv key msg) s = .next (complete ⟨0x00#8, 0, 0, cbcEnc aesCipher iv key msg⟩ s) ∧
      exec (.aesDec iv key msg) s = .next (complete ⟨0x00#8, 0, 0, cbcDec aesCipher iv key msg⟩ s)) ∧
    (∀ o n : Nat, o + n ≤ msg.length → n % 16 = 0 →
      exec (.aesDecR iv key msg o n) s =
        .next (complete ⟨0x00#8, 0, 0, cbcDec aesCipher iv key (slice msg o n)⟩ s))

/-- The TDES operations complete, under any key and IV contents, with the CBC result of the range; the Z forms take
the all-zero IV (42_tdes R140 to R144). -/
def Obligations.TdesOperationsComplete : Prop :=
  ∀ (key msg : Bytes) (s : State), key.length = 24 →
    (∀ iv : Bytes, iv.length = 8 →
      (msg.length % 8 = 0 →
        exec (.tdesEnc iv key msg) s = .next (complete ⟨0x00#8, 0, 0, cbcEnc tdesCipher iv key msg⟩ s) ∧
        exec (.tdesDec iv key msg) s = .next (complete ⟨0x00#8, 0, 0, cbcDec tdesCipher iv key msg⟩ s)) ∧
      (∀ o n : Nat, o + n ≤ msg.length → n % 8 = 0 →
        exec (.tdesDecR iv key msg o n) s =
          .next (complete ⟨0x00#8, 0, 0, cbcDec tdesCipher iv key (slice msg o n)⟩ s))) ∧
    (msg.length % 8 = 0 →
      exec (.tdesDecZ key msg) s =
        .next (complete ⟨0x00#8, 0, 0, cbcDec tdesCipher (List.replicate 8 0x00#8) key msg⟩ s)) ∧
    (∀ o n : Nat, o + n ≤ msg.length → n % 8 = 0 →
      exec (.tdesDecZR key msg o n) s =
        .next (complete ⟨0x00#8, 0, 0, cbcDec tdesCipher (List.replicate 8 0x00#8) key (slice msg o n)⟩ s))

/-- The operand errors of the AES operations, the first cause in the order key size, IV size, range, block length
(60_exceptions R224). -/
def Obligations.AesErrorsInPriorityOrder : Prop :=
  ∀ (iv key msg : Bytes) (o n : Nat) (s : State),
    (key.length ≠ 16 →
      ∀ i ∈ [Instr.aesEnc iv key msg, .aesDec iv key msg, .aesDecR iv key msg o n],
        exec i s = .next (complete ⟨0x11#8, 16, key.length, []⟩ s)) ∧
    (key.length = 16 → iv.length ≠ 16 →
      ∀ i ∈ [Instr.aesEnc iv key msg, .aesDec iv key msg, .aesDecR iv key msg o n],
        exec i s = .next (complete ⟨0x12#8, 16, iv.length, []⟩ s)) ∧
    (key.length = 16 → iv.length = 16 → o + n > msg.length →
      exec (.aesDecR iv key msg o n) s = .next (complete ⟨0x42#8, msg.length, o + n, []⟩ s)) ∧
    (key.length = 16 → iv.length = 16 → o + n ≤ msg.length → n % 16 ≠ 0 →
      exec (.aesDecR iv key msg o n) s = .next (complete ⟨0x13#8, 16, n, []⟩ s)) ∧
    (key.length = 16 → iv.length = 16 → msg.length % 16 ≠ 0 →
      ∀ i ∈ [Instr.aesEnc iv key msg, .aesDec iv key msg],
        exec i s = .next (complete ⟨0x13#8, 16, msg.length, []⟩ s))

/-- The operand errors of the TDES operations, in the same order; the Z forms have no IV to check (60_exceptions R224;
40_cipher_common R93). -/
def Obligations.TdesErrorsInPriorityOrder : Prop :=
  ∀ (iv key msg : Bytes) (o n : Nat) (s : State),
    (key.length ≠ 24 →
      ∀ i ∈ [Instr.tdesEnc iv key msg, .tdesDec iv key msg, .tdesDecR iv key msg o n, .tdesDecZ key msg,
          .tdesDecZR key msg o n],
        exec i s = .next (complete ⟨0x11#8, 24, key.length, []⟩ s)) ∧
    (key.length = 24 → iv.length ≠ 8 →
      ∀ i ∈ [Instr.tdesEnc iv key msg, .tdesDec iv key msg, .tdesDecR iv key msg o n],
        exec i s = .next (complete ⟨0x12#8, 8, iv.length, []⟩ s)) ∧
    (key.length = 24 → o + n > msg.length →
      (iv.length = 8 → exec (.tdesDecR iv key msg o n) s = .next (complete ⟨0x42#8, msg.length, o + n, []⟩ s)) ∧
      exec (.tdesDecZR key msg o n) s = .next (complete ⟨0x42#8, msg.length, o + n, []⟩ s)) ∧
    (key.length = 24 → o + n ≤ msg.length → n % 8 ≠ 0 →
      (iv.length = 8 → exec (.tdesDecR iv key msg o n) s = .next (complete ⟨0x13#8, 8, n, []⟩ s)) ∧
      exec (.tdesDecZR key msg o n) s = .next (complete ⟨0x13#8, 8, n, []⟩ s)) ∧
    (key.length = 24 → msg.length % 8 ≠ 0 →
      (iv.length = 8 →
        exec (.tdesEnc iv key msg) s = .next (complete ⟨0x13#8, 8, msg.length, []⟩ s) ∧
        exec (.tdesDec iv key msg) s = .next (complete ⟨0x13#8, 8, msg.length, []⟩ s)) ∧
      exec (.tdesDecZ key msg) s = .next (complete ⟨0x13#8, 8, msg.length, []⟩ s))

/-- The frame of the eight cipher operations: they write `RES`, discard the working state and return the engine to
IDLE; every byte of the message space, the descriptor latch, the link, the host and the parameters are unchanged, and
on an error no data is written (10_state R26; 20_memory R44; 60_exceptions R227). -/
def Obligations.CipherOperationsFrame : Prop :=
  ∀ (i : Instr) (s t : State), i.isCipher = true → exec i s = .next t →
    t = { s with res := t.res, acc := [], iter := 0, txf := [], work := ⟨[], 0⟩, phase := .idle, done := true } ∧
    (∀ a, readByte t.d.msg a = readByte s.d.msg a) ∧
    (t.res.code ≠ 0x00#8 → t.res.data = [])

/-- On success the result has exactly the length of the range (40_cipher_common R99). -/
def Obligations.CipherResultLength : Prop :=
  ∀ (i : Instr) (s t : State), i.isCipher = true → exec i s = .next t → t.res.code = 0x00#8 →
    t.res.data.length = (rangeOf i).len

/-- A zero-length message or range passes every check, given a good key and IV, and succeeds with empty data
(40_cipher_common R96). -/
def Obligations.EmptyRangeSucceeds : Prop :=
  ∀ (iv key msg : Bytes) (o : Nat) (s : State), o ≤ msg.length →
    (key.length = 16 → iv.length = 16 →
      ∀ i ∈ [Instr.aesEnc iv key [], .aesDec iv key [], .aesDecR iv key msg o 0],
        exec i s = .next (complete ⟨0x00#8, 0, 0, []⟩ s)) ∧
    (key.length = 24 → iv.length = 8 →
      ∀ i ∈ [Instr.tdesEnc iv key [], .tdesDec iv key [], .tdesDecR iv key msg o 0],
        exec i s = .next (complete ⟨0x00#8, 0, 0, []⟩ s)) ∧
    (key.length = 24 →
      ∀ i ∈ [Instr.tdesDecZ key [], .tdesDecZR key msg o 0], exec i s = .next (complete ⟨0x00#8, 0, 0, []⟩ s))

/-- The equivalences that play the part of pseudo-instructions, errors included; those of the framer's operations where
the framer is present (30_encoding R75; 40_cipher_common R101). -/
def Obligations.PseudoFormsAgree : Prop :=
  ∀ (iv key m : Bytes) (o n : Nat) (c : Byte) (e : BitVec 16) (s : State),
    exec (.aesDec iv key m) s = exec (.aesDecR iv key m 0 m.length) s ∧
    exec (.tdesDec iv key m) s = exec (.tdesDecR iv key m 0 m.length) s ∧
    exec (.tdesDecZ key m) s = exec (.tdesDec (List.replicate 8 0x00#8) key m) s ∧
    exec (.tdesDecZR key m o n) s = exec (.tdesDecR (List.replicate 8 0x00#8) key m o n) s ∧
    (o + n ≤ m.length →
      exec (.aesDecR iv key m o n) s = exec (.aesDec iv key (slice m o n)) s ∧
      exec (.tdesDecR iv key m o n) s = exec (.tdesDec iv key (slice m o n)) s ∧
      exec (.tdesDecZR key m o n) s = exec (.tdesDecZ key (slice m o n)) s) ∧
    (s.cfg.hasFramer = true →
      exec (.sendCmd m c e) s = exec (.sendCmdR m 0 m.length c e) s ∧
      exec (.sendChain m c) s = exec (.sendChainR m 0 m.length c) s ∧
      (m.length ≤ 255 → exec (.sendChain m c) s = exec (.sendApduChain (wrap s.cfg c m)) s))

/-- Bytes of the message outside the range are never read: the outcome of a range form is unchanged when any of them
is changed (20_memory R43). -/
def Obligations.BytesOutsideRangeAreNotRead : Prop :=
  ∀ (iv key m m' : Bytes) (o n : Nat) (c : Byte) (e : BitVec 16) (s : State),
    m.length = m'.length → (∀ a, o ≤ a → a < o + n → readByte m a = readByte m' a) →
    exec (.aesDecR iv key m o n) s = exec (.aesDecR iv key m' o n) s ∧
    exec (.tdesDecR iv key m o n) s = exec (.tdesDecR iv key m' o n) s ∧
    exec (.tdesDecZR key m o n) s = exec (.tdesDecZR key m' o n) s ∧
    exec (.sendCmdR m o n c e) s = exec (.sendCmdR m' o n c e) s ∧
    exec (.sendChainR m o n c) s = exec (.sendChainR m' o n c) s

/-- Two cipher operations with equal operands give equal results in any two states: nothing the engine held before,
no parameter and nothing the collaborator does has a part in it (40_cipher_common R102; 00_scope R2). -/
def Obligations.CipherResultDependsOnOperandsOnly : Prop :=
  ∀ (i : Instr) (s s' : State), i.isCipher = true →
    ∃ r : Result, exec i s = .next (complete r s) ∧ exec i s' = .next (complete r s')

/-- An error result of a cipher operation shows lengths only: for two descriptors that differ in the contents of IV,
KEY and MSG but not in their lengths, if one ends in an error the other ends in the same one (60_exceptions R223,
R236). -/
def Obligations.CipherErrorShowsLengthsOnly : Prop :=
  ∀ (d d' : Descriptor) (s t : State), d.op.toNat / 16 ≠ 4 → s.phase = .busy → s.host = [] →
    d'.op = d.op → d'.offset = d.offset → d'.length = d.length →
    d'.iv.length = d.iv.length → d'.key.length = d.key.length → d'.msg.length = d.msg.length →
    step { s with d := d } = .next t → t.res.code ≠ 0x00#8 →
    step { s with d := d' } = .next { t with d := d' }

/-! ### CBC and the block primitives -/

/-- The encryption recurrence: block `i` of the result is `E(k, p[i] XOR c[i-1])` with `c[-1] = iv`, and the result is
exactly these blocks (40_cipher_common R97). -/
def Obligations.CbcEncryptionRecurrence : Prop :=
  ∀ (C : Cipher) (iv k x : Bytes) (m : Nat), 0 < C.block → iv.length = C.block → x.length = m * C.block →
    (∀ b, b.length = C.block → (C.enc k b).length = C.block) →
    (cbcEnc C iv k x).length = m * C.block ∧
    ∀ i, i < m → blockAt C.block (cbcEnc C iv k x) i =
      C.enc k (xorBytes (blockAt C.block x i)
        (if i = 0 then iv else blockAt C.block (cbcEnc C iv k x) (i - 1)))

/-- The decryption recurrence: block `i` of the result is `Dd(k, c[i]) XOR c[i-1]` with `c[-1] = iv`; decrypting from
block `j > 0` on with `c[j-1]` as the IV gives the rest of the result, and with another IV (the original one, say) a
wrong first block and right later blocks (40_cipher_common R98). -/
def Obligations.CbcDecryptionRecurrence : Prop :=
  ∀ (C : Cipher) (iv k x : Bytes) (m : Nat), 0 < C.block → iv.length = C.block → x.length = m * C.block →
    (∀ b, b.length = C.block → (C.dec k b).length = C.block) →
    (cbcDec C iv k x).length = m * C.block ∧
    (∀ i, i < m → blockAt C.block (cbcDec C iv k x) i =
      xorBytes (C.dec k (blockAt C.block x i)) (if i = 0 then iv else blockAt C.block x (i - 1))) ∧
    (∀ j, 0 < j → j ≤ m → cbcDec C (blockAt C.block x (j - 1)) k (x.drop (j * C.block)) =
      (cbcDec C iv k x).drop (j * C.block)) ∧
    (∀ (j : Nat) (iv' : Bytes), 0 < j → j < m → iv'.length = C.block → iv' ≠ blockAt C.block x (j - 1) →
      blockAt C.block (cbcDec C iv' k (x.drop (j * C.block))) 0 ≠ blockAt C.block (cbcDec C iv k x) j ∧
      (cbcDec C iv' k (x.drop (j * C.block))).drop C.block = (cbcDec C iv k x).drop ((j + 1) * C.block))

/-- The round-trip law: for every cipher record whose `Dd` undoes its `E`, and so for AES-128-CBC and 3DES-CBC with
the default primitives (40_cipher_common R100). -/
def Obligations.CbcRoundTrip : Prop :=
  (∀ (C : Cipher) (iv k x : Bytes), 0 < C.block → iv.length = C.block → x.length % C.block = 0 →
    (∀ b, b.length = C.block → (C.enc k b).length = C.block) →
    (∀ b, b.length = C.block → C.dec k (C.enc k b) = b) →
    cbcDec C iv k (cbcEnc C iv k x) = x) ∧
  (∀ iv k x : Bytes, iv.length = 16 → k.length = 16 → x.length % 16 = 0 →
    cbcDec aesCipher iv k (cbcEnc aesCipher iv k x) = x) ∧
  (∀ iv k x : Bytes, iv.length = 8 → k.length = 24 → x.length % 8 = 0 →
    cbcDec tdesCipher iv k (cbcEnc tdesCipher iv k x) = x)

/-- The primitives are only ever called with a key of `KL` bytes and blocks of `B` bytes: two cipher records that
agree on those, and whose primitives give blocks of `B` bytes for them, give the same outcome on every operand
(40_cipher_common R103, R104). -/
def Obligations.PrimitiveCalledOnGoodOperandsOnly : Prop :=
  ∀ C C' : Cipher, C'.block = C.block → C'.keyLen = C.keyLen →
    (∀ k b, k.length = C.keyLen → b.length = C.block →
      C'.enc k b = C.enc k b ∧ C'.dec k b = C.dec k b ∧ (C.enc k b).length = C.block) →
    ∀ (dir : Dir) (iv key msg : Bytes) (rg : Range) (s : State),
      cipherOp C' dir iv key msg rg s = cipherOp C dir iv key msg rg s

/-- Field arithmetic of 41_aes R114: doubling, the product as a sum over the set bits, R114's examples, the inverse. -/
def Obligations.FieldArithmetic : Prop :=
  (∀ a : Byte, xtime a = (a <<< 1) ^^^ (if a.getLsbD 7 then 0x1B#8 else 0x00#8)) ∧
  (∀ a b : Byte, gmul a b =
    (if b.getLsbD 0 then a else 0) ^^^ (if b.getLsbD 1 then xtime a else 0) ^^^
    (if b.getLsbD 2 then xtime (xtime a) else 0) ^^^ (if b.getLsbD 3 then xtime (xtime (xtime a)) else 0) ^^^
    (if b.getLsbD 4 then xtimes 4 a else 0) ^^^ (if b.getLsbD 5 then xtimes 5 a else 0) ^^^
    (if b.getLsbD 6 then xtimes 6 a else 0) ^^^ (if b.getLsbD 7 then xtimes 7 a else 0)) ∧
  xtime 0x57#8 = 0xAE#8 ∧ xtime 0xAE#8 = 0x47#8 ∧ gmul 0x57#8 0x13#8 = 0xFE#8 ∧ gmul 0x57#8 0x83#8 = 0xC1#8 ∧
  (∀ a : Byte, a ≠ 0 → gmul a (ginv a) = 1#8) ∧ ginv 0#8 = 0#8

/-- The S-box table is R115's formula at every byte, and the inverse table undoes it (41_aes R115, R116). -/
def Obligations.SboxTablesAreTheFormula : Prop :=
  (∀ a : Byte, sbox a = ginv a ^^^ (ginv a).rotateLeft 1 ^^^ (ginv a).rotateLeft 2 ^^^ (ginv a).rotateLeft 3 ^^^
    (ginv a).rotateLeft 4 ^^^ 0x63#8) ∧
  (∀ a : Byte, invSbox (sbox a) = a) ∧ sbox 0x00#8 = 0x63#8 ∧ sbox 0x53#8 = 0xED#8 ∧ sbox 0xFF#8 = 0x16#8

/-- `ShiftRows` and `InvShiftRows` in block-byte terms, on any sixteen-byte block (41_aes R118, R123). -/
def Obligations.RowShifts : Prop :=
  ∀ s : Bytes, s.length = 16 →
    (shiftRows s).length = 16 ∧ (invShiftRows s).length = 16 ∧
    ∀ r c : Nat, r < 4 → c < 4 →
      (shiftRows s)[r + 4 * c]? = s[r + 4 * ((c + r) % 4)]? ∧
      (invShiftRows s)[r + 4 * ((c + r) % 4)]? = s[r + 4 * c]?

/-- `MixColumns`: the four equations of each column (41_aes R119), and those of `InvMixColumns` (R123). -/
def Obligations.ColumnMixes : Prop :=
  ∀ (s : Bytes) (c : Nat), s.length = 16 → c < 4 →
    let a0 := stateAt s 0 c
    let a1 := stateAt s 1 c
    let a2 := stateAt s 2 c
    let a3 := stateAt s 3 c
    stateAt (mixColumns s) 0 c = xtime a0 ^^^ (xtime a1 ^^^ a1) ^^^ a2 ^^^ a3 ∧
    stateAt (mixColumns s) 1 c = a0 ^^^ xtime a1 ^^^ (xtime a2 ^^^ a2) ^^^ a3 ∧
    stateAt (mixColumns s) 2 c = a0 ^^^ a1 ^^^ xtime a2 ^^^ (xtime a3 ^^^ a3) ∧
    stateAt (mixColumns s) 3 c = (xtime a0 ^^^ a0) ^^^ a1 ^^^ a2 ^^^ xtime a3 ∧
    stateAt (invMixColumns s) 0 c = gmul a0 14#8 ^^^ gmul a1 11#8 ^^^ gmul a2 13#8 ^^^ gmul a3 9#8 ∧
    stateAt (invMixColumns s) 1 c = gmul a0 9#8 ^^^ gmul a1 14#8 ^^^ gmul a2 11#8 ^^^ gmul a3 13#8 ∧
    stateAt (invMixColumns s) 2 c = gmul a0 13#8 ^^^ gmul a1 9#8 ^^^ gmul a2 14#8 ^^^ gmul a3 11#8 ∧
    stateAt (invMixColumns s) 3 c = gmul a0 11#8 ^^^ gmul a1 13#8 ^^^ gmul a2 9#8 ^^^ gmul a3 14#8

/-- The key expansion: 44 words, the first four from the key, each later one by the recurrence; and the round keys of
R121's example (41_aes R121). -/
def Obligations.AesKeyExpansion : Prop :=
  (∀ k : Bytes, k.length = 16 →
    (keyWords k).length = 44 ∧
    (∀ i, i < 4 → (keyWords k)[i]? = some (slice k (4 * i) 4)) ∧
    (∀ i, 4 ≤ i → i < 44 → ∃ w4 w1, (keyWords k)[i - 4]? = some w4 ∧ (keyWords k)[i - 1]? = some w1 ∧
      (keyWords k)[i]? = some (xorBytes w4
        (if i % 4 = 0 then
          xorBytes ((w1.drop 1 ++ w1.take 1).map sbox)
            [[0x01#8, 0x02#8, 0x04#8, 0x08#8, 0x10#8, 0x20#8, 0x40#8, 0x80#8, 0x1B#8, 0x36#8].getD (i / 4 - 1) 0#8,
              0#8, 0#8, 0#8]
         else w1))) ∧
    (∀ r, r < 11 → ∃ a b c d, (keyWords k)[4 * r]? = some a ∧ (keyWords k)[4 * r + 1]? = some b ∧
      (keyWords k)[4 * r + 2]? = some c ∧ (keyWords k)[4 * r + 3]? = some d ∧
      roundKey (keyWords k) r = a ++ b ++ c ++ d)) ∧
  (∀ k : Bytes, k = [0x2B#8, 0x7E#8, 0x15#8, 0x16#8, 0x28#8, 0xAE#8, 0xD2#8, 0xA6#8, 0xAB#8, 0xF7#8, 0x15#8, 0x88#8,
      0x09#8, 0xCF#8, 0x4F#8, 0x3C#8] →
    roundKey (keyWords k) 1 = [0xA0#8, 0xFA#8, 0xFE#8, 0x17#8, 0x88#8, 0x54#8, 0x2C#8, 0xB1#8, 0x23#8, 0xA3#8, 0x39#8,
      0x39#8, 0x2A#8, 0x6C#8, 0x76#8, 0x05#8] ∧
    roundKey (keyWords k) 10 = [0xD0#8, 0x14#8, 0xF9#8, 0xA8#8, 0xC9#8, 0xEE#8, 0x25#8, 0x89#8, 0xE1#8, 0x3F#8, 0x0C#8,
      0xC8#8, 0xB6#8, 0x63#8, 0x0C#8, 0xA6#8])

/-- `AES128_D` and `AES128_E` are inverse on sixteen-byte blocks under every sixteen-byte key, and give sixteen bytes;
a key of AES-192 or AES-256 is refused by every AES operation (41_aes R125). -/
def Obligations.AesPrimitivesInverse : Prop :=
  (∀ k b : Bytes, k.length = 16 → b.length = 16 →
    aes128D k (aes128E k b) = b ∧ aes128E k (aes128D k b) = b ∧
    (aes128E k b).length = 16 ∧ (aes128D k b).length = 16) ∧
  (∀ (iv K msg : Bytes) (o n : Nat) (s : State), K.length = 24 ∨ K.length = 32 →
    ∀ i ∈ [Instr.aesEnc iv K msg, .aesDec iv K msg, .aesDecR iv K msg o n],
      exec i s = .next (complete ⟨0x11#8, 16, K.length, []⟩ s))

/-- DES and TDEA are inverse in both directions, on eight-byte blocks, under every key of the right size, with R160's
known answer (42_tdes R160). -/
def Obligations.DesPrimitivesInverse : Prop :=
  (∀ K b : Bytes, K.length = 8 → b.length = 8 →
    desD K (desE K b) = b ∧ desE K (desD K b) = b ∧ (desE K b).length = 8 ∧ (desD K b).length = 8) ∧
  (∀ key b : Bytes, key.length = 24 → b.length = 8 →
    tdesD key (tdesE key b) = b ∧ tdesE key (tdesD key b) = b ∧
    (tdesE key b).length = 8 ∧ (tdesD key b).length = 8) ∧
  desE [0x01#8, 0x23#8, 0x45#8, 0x67#8, 0x89#8, 0xAB#8, 0xCD#8, 0xEF#8]
      [0x4E#8, 0x6F#8, 0x77#8, 0x20#8, 0x69#8, 0x73#8, 0x20#8, 0x74#8] =
    [0x3F#8, 0xA4#8, 0x0E#8, 0x8A#8, 0x98#8, 0x4D#8, 0x48#8, 0x15#8]

/-- Parity is ignored: keys that differ only in the least significant bits of their bytes give the same block; and no
key value is refused: of two keys of one size the checks make the same (42_tdes R147). -/
def Obligations.ParityBitsIgnored : Prop :=
  (∀ key key' b : Bytes, key.length = 24 → key'.length = 24 →
    (∀ a, a < 24 → (key.getD a 0#8) >>> 1 = (key'.getD a 0#8) >>> 1) →
    tdesE key b = tdesE key' b ∧ tdesD key b = tdesD key' b) ∧
  (∀ (iv key msg : Bytes) (rg : Range), key.length = 24 → ∀ e, cipherError tdesCipher iv key msg rg = some e →
    e.cause ≠ .invalidKeySize ∧ ∀ key' : Bytes, key'.length = 24 → cipherError tdesCipher iv key' msg rg = some e)

/-- With three equal key parts the primitive is single DES; a two-key key is presented as `Ka Kb Ka`; an eight-byte or
sixteen-byte key is refused (42_tdes R148, R161). -/
def Obligations.OneKeyUseIsSingleDes : Prop :=
  (∀ K b : Bytes, K.length = 8 → b.length = 8 →
    tdesE (K ++ K ++ K) b = desE K b ∧ tdesD (K ++ K ++ K) b = desD K b) ∧
  (∀ Ka Kb b : Bytes, Ka.length = 8 → Kb.length = 8 →
    tdesE (Ka ++ Kb ++ Ka) b = desE Ka (desD Kb (desE Ka b))) ∧
  (∀ (iv K msg : Bytes) (o n : Nat) (s : State), K.length = 8 ∨ K.length = 16 →
    ∀ i ∈ [Instr.tdesEnc iv K msg, .tdesDec iv K msg, .tdesDecR iv K msg o n, .tdesDecZ K msg, .tdesDecZR K msg o n],
      exec i s = .next (complete ⟨0x11#8, 24, K.length, []⟩ s))

/-- The key schedule and the first and last rounds of the worked DES example (42_tdes R157, R158, R159). -/
def Obligations.DesWorkedExample : Prop :=
  let K : Bytes := [0x13#8, 0x34#8, 0x57#8, 0x79#8, 0x9B#8, 0xBC#8, 0xDF#8, 0xF1#8]
  let b : Bytes := [0x01#8, 0x23#8, 0x45#8, 0x67#8, 0x89#8, 0xAB#8, 0xCD#8, 0xEF#8]
  let c : Bytes := [0x85#8, 0xE8#8, 0x13#8, 0x54#8, 0x0F#8, 0x0A#8, 0xB4#8, 0x05#8]
  (permute desPC1 (toBits K)).take 28 = natToBits 28 0xF0CCAAF ∧
  (permute desPC1 (toBits K)).drop 28 = natToBits 28 0x556678F ∧
  (desKeys K).length = 16 ∧ (desKeys K)[0]? = some (natToBits 48 0x1B02EFFC7072) ∧
  (desKeys K)[1]? = some (natToBits 48 0x79AED9DBC9E5) ∧ (desKeys K)[15]? = some (natToBits 48 0xCB3D8B0E17F5) ∧
  permute desIP (toBits b) = natToBits 64 0xCC00CCFFF0AAF0AA ∧
  desRounds ((desKeys K).take 2) (natToBits 32 0xCC00CCFF, natToBits 32 0xF0AAF0AA) =
    (natToBits 32 0xEF4A6544, natToBits 32 0xCC017709) ∧
  desRounds (desKeys K) (natToBits 32 0xCC00CCFF, natToBits 32 0xF0AAF0AA) =
    (natToBits 32 0x43423234, natToBits 32 0x0A4CD995) ∧
  desE K b = c ∧ desD K c = b

/-! ### The framer -/

/-- The wrapped command and the continuation frame, byte by byte (30_encoding R68, R69, R70). -/
def Obligations.WrapLayout : Prop :=
  ∀ (p : Params) (c : Byte) (params : Bytes),
    (1 ≤ params.length → params.length ≤ 255 →
      wrap p c params = [0x90#8, c, 0x00#8, 0x00#8, BitVec.ofNat 8 params.length] ++ params ++ [0x00#8] ∧
      (wrap p c params).length = params.length + 6 ∧
      ((wrap p c params).getD 4 0#8).toNat = params.length) ∧
    wrap p c [] = (if p.emptyLcOmitted then [0x90#8, c, 0x00#8, 0x00#8, 0x00#8]
      else [0x90#8, c, 0x00#8, 0x00#8, 0x00#8, 0x00#8]) ∧
    contFrame p = wrap p 0xAF#8 []

/-- `SEND_CMD` and `SEND_CMD_R` complete with the data before the status word when that word is the expected one,
0x91AF included, after exactly one exchange, of the wrapped command (43_framer R181, R182). In this statement and the
next ones an answer that comes after silences counts too: `Link.exchanged` sends nothing more where the frame was
already handed over (60_exceptions R234). -/
def Obligations.SingleExchangeCompletes : Prop :=
  ∀ (msg data : Bytes) (c h l : Byte) (e : BitVec 16) (rest : List Answer) (s : State),
    s.cfg.hasFramer = true → s.link.answers = .ok (data ++ [h, l]) :: rest →
    data.length + 2 ≤ s.cfg.frameMax → e.toNat = 256 * h.toNat + l.toNat →
    (msg.length ≤ 255 → exec (.sendCmd msg c e) s =
      .next (complete ⟨0x00#8, 0, 0, data⟩ { s with link := s.link.exchanged (wrap s.cfg c msg) rest })) ∧
    (∀ o n : Nat, o + n ≤ msg.length → n ≤ 255 → exec (.sendCmdR msg o n c e) s =
      .next (complete ⟨0x00#8, 0, 0, data⟩
        { s with link := s.link.exchanged (wrap s.cfg c (slice msg o n)) rest }))

/-- In `SEND_CMD` and `SEND_CMD_R` any other status word is `UNEXPECTED_STATUS` with no data and no further frame
(43_framer R181; 90_conflicts C2). -/
def Obligations.SingleExchangeMismatch : Prop :=
  ∀ (msg data f : Bytes) (o n : Nat) (c h l : Byte) (e : BitVec 16) (rest : List Answer) (s : State),
    s.link.answers = .ok (data ++ [h, l]) :: rest →
    data.length + 2 ≤ s.cfg.frameMax → e.toNat ≠ 256 * h.toNat + l.toNat →
    ∀ i ∈ [Instr.sendCmd msg c e, .sendCmdR msg o n c e], sends i s f →
      exec i s = .next (complete ⟨0x21#8, e.toNat, 256 * h.toNat + l.toNat, []⟩
        { s with link := s.link.exchanged f rest })

/-- `SEND_CHAIN`, `SEND_CHAIN_R` and `SEND_APDU_CHAIN` complete on their first response when it ends 0x9100: one
exchange, that response's data (43_framer R183, R184, R185, R188). -/
def Obligations.ChainCompletesOnFirstResponse : Prop :=
  ∀ (msg data : Bytes) (c : Byte) (rest : List Answer) (s : State),
    s.cfg.hasFramer = true → s.iter = 0 → 1 ≤ s.cfg.chainMax →
    s.link.answers = .ok (data ++ [0x91#8, 0x00#8]) :: rest → data.length + 2 ≤ s.cfg.frameMax →
    (msg.length ≤ 255 → exec (.sendChain msg c) s =
      .next (complete ⟨0x00#8, 0, 0, data⟩ { s with link := s.link.exchanged (wrap s.cfg c msg) rest })) ∧
    (∀ o n : Nat, o + n ≤ msg.length → n ≤ 255 → exec (.sendChainR msg o n c) s =
      .next (complete ⟨0x00#8, 0, 0, data⟩
        { s with link := s.link.exchanged (wrap s.cfg c (slice msg o n)) rest })) ∧
    exec (.sendApduChain msg) s =
      .next (complete ⟨0x00#8, 0, 0, data⟩ { s with link := s.link.exchanged msg rest })

/-- One pass of the chain loop of a chain operation on a response of at least two bytes: 0x91AF appends the data and
sets up the continuation frame, 0x9100 completes with what was accumulated, any other status word is
`UNEXPECTED_STATUS` (43_framer R188, R195; 30_encoding R72). `acc0` is what was accumulated before the pass: nothing
at the first. -/
def Obligations.ChainPass : Prop :=
  ∀ (i : Instr) (f data : Bytes) (h l : Byte) (rest : List Answer) (s : State),
    i.isChain = true → sends i s f →
    s.link.answers = .ok (data ++ [h, l]) :: rest → data.length + 2 ≤ s.cfg.frameMax →
    let acc0 := if s.iter = 0 then [] else s.acc
    exec i s = .next
      (if h = 0x91#8 ∧ l = 0xAF#8 then
        { s with acc := acc0 ++ data, iter := s.iter + 1, txf := contFrame s.cfg, link := s.link.exchanged f rest }
       else if h = 0x91#8 ∧ l = 0x00#8 then
        complete ⟨0x00#8, 0, 0, acc0 ++ data⟩ { s with link := s.link.exchanged f rest }
       else complete ⟨0x21#8, 0x9100, 256 * h.toNat + l.toNat, []⟩ { s with link := s.link.exchanged f rest })

/-- The safety bound: a chain operation that comes round with `ITER = CHAIN_MAX` ends with `CHAIN_TOO_LONG` without
another frame, its data discarded (43_framer R189). -/
def Obligations.ChainBoundReached : Prop :=
  ∀ (i : Instr) (s : State), i.isChain = true → s.iter ≠ 0 → s.iter = s.cfg.chainMax →
    exec i s = .next (complete ⟨0x22#8, s.cfg.chainMax, s.cfg.chainMax, []⟩ s)

/-- A failed exchange and a response of fewer than two bytes end any framer operation, with the collaborator's reason
passed through and with `SHORT_RESPONSE`, and no data (43_framer R187, R191). -/
def Obligations.ExchangeFailureAndShortResponse : Prop :=
  ∀ (i : Instr) (f : Bytes) (rest : List Answer) (s : State), sends i s f →
    (∀ reason : BitVec 16, s.link.answers = .fail reason :: rest →
      exec i s = .next (complete ⟨0x31#8, 0, reason.toNat, []⟩ { s with link := s.link.exchanged f rest })) ∧
    (∀ r : Bytes, s.link.answers = .ok r :: rest → r.length < 2 → r.length ≤ s.cfg.frameMax →
      exec i s = .next (complete ⟨0x23#8, 2, r.length, []⟩ { s with link := s.link.exchanged f rest }))

/-- THE MODEL'S READING (log 5; 00_scope R9: a longer frame "is the collaborator's failure"): a response longer than
`FRAME_MAX` ends any framer operation with `EXCHANGE_FAILED`, whose reason is a free value. -/
def Obligations.OverlongResponseIsAFailure : Prop :=
  ∀ (i : Instr) (f r : Bytes) (rest : List Answer) (s : State), sends i s f →
    s.link.answers = .ok r :: rest → s.cfg.frameMax < r.length →
    exec i s = .next (complete ⟨0x31#8, 0, (Config.overlongReason s.freeCount).toNat, []⟩
      { s with link := s.link.exchanged f rest, freeCount := s.freeCount + 1 })

/-- The operand errors of the framer operations, in the order unit absent, range, Lc; none performs an exchange
(60_exceptions R225; 43_framer R180; 30_encoding R77). The chain operations check in their first step. -/
def Obligations.FramerErrorsInPriorityOrder : Prop :=
  ∀ (msg : Bytes) (o n : Nat) (c : Byte) (e : BitVec 16) (s : State), s.iter = 0 →
    (s.cfg.hasFramer = false →
      ∀ i ∈ [Instr.sendCmd msg c e, .sendCmdR msg o n c e, .sendChain msg c, .sendChainR msg o n c,
          .sendApduChain msg],
        exec i s = .next (complete ⟨0x44#8, 0, s.d.op.toNat, []⟩ s)) ∧
    (s.cfg.hasFramer = true → o + n > msg.length →
      ∀ i ∈ [Instr.sendCmdR msg o n c e, .sendChainR msg o n c],
        exec i s = .next (complete ⟨0x42#8, msg.length, o + n, []⟩ s)) ∧
    (s.cfg.hasFramer = true → o + n ≤ msg.length → n > 255 →
      ∀ i ∈ [Instr.sendCmdR msg o n c e, .sendChainR msg o n c],
        exec i s = .next (complete ⟨0x43#8, 255, n, []⟩ s)) ∧
    (s.cfg.hasFramer = true → msg.length > 255 →
      ∀ i ∈ [Instr.sendCmd msg c e, .sendChain msg c],
        exec i s = .next (complete ⟨0x43#8, 255, msg.length, []⟩ s))

/-- While the collaborator has not answered, the engine stays in the operation, with the frame handed over once and
nothing completed (60_exceptions R234; 70_reset_and_hazards R261). -/
def Obligations.UnansweredExchangeWaits : Prop :=
  ∀ (i : Instr) (f : Bytes) (s : State), sends i s f →
    s.link.answers = [] ∨ (∃ rest, s.link.answers = .silent :: rest) →
    ∃ t, exec i s = .next t ∧ t.phase = s.phase ∧ t.done = s.done ∧ t.res = s.res ∧ t.d = s.d ∧ t.iter = s.iter ∧
      t.txf = f ∧ t.link.outstanding = true ∧ t.link.answers = s.link.answers.tail ∧
      t.link.sent = (if s.link.outstanding then s.link.sent else s.link.sent ++ [f])

/-- The frame of the five framer operations: the descriptor latch, the message space, the host and the parameters are
unchanged; on the link at most one frame is handed over, the one `sends` gives, never while an exchange is
outstanding, and at most one answer is taken; and either the operation goes on with `RES`, `PHASE`, `DONE` and the
cipher working state as they were, or it completes (43_framer R181 to R185; 60_exceptions R234). -/
def Obligations.FramerOperationsFrame : Prop :=
  ∀ (i : Instr) (s t : State), i.isCipher = false → exec i s = .next t →
    t.cfg = s.cfg ∧ t.d = s.d ∧ t.host = s.host ∧ (∀ a, readByte t.d.msg a = readByte s.d.msg a) ∧
    (t.link.sent = s.link.sent ∨
      ∃ f, sends i s f ∧ s.link.outstanding = false ∧ t.link.sent = s.link.sent ++ [f]) ∧
    (t.link.answers = s.link.answers ∨ ∃ a, s.link.answers = a :: t.link.answers) ∧
    ((t.res = s.res ∧ t.phase = s.phase ∧ t.done = s.done ∧ t.work = s.work ∧ t.freeCount = s.freeCount) ∨
      t = complete t.res { s with link := t.link, freeCount := t.freeCount })

/-- The accumulation law over a whole operation: a chain whose responses are `more` fragments ending 0x91AF and a last
one ending 0x9100, no more of them than `CHAIN_MAX`, takes one step per exchange, sends the first frame (unless it has
been handed over already) and then the continuation frame each time, and completes with the concatenation of all data
(43_framer R188, R190, R193). -/
def Obligations.ChainAccumulatesAllFragments : Prop :=
  ∀ (i : Instr) (first last : Bytes) (more : List Bytes) (rest : List Answer) (s : State),
    s.phase = .busy → decode s.d = .ok i → i.isChain = true → s.host = [] → s.iter = 0 → sends i s first →
    more.length + 1 ≤ s.cfg.chainMax →
    (∀ r ∈ last :: more, r.length + 2 ≤ s.cfg.frameMax) →
    s.link.answers = more.map (fun r => .ok (r ++ [0x91#8, 0xAF#8])) ++ .ok (last ++ [0x91#8, 0x00#8]) :: rest →
    Host.Core.run Sys2Proof.core (more.length + 1) s =
      .next (complete ⟨0x00#8, 0, 0, more.flatten ++ last⟩
        { s with link := ⟨rest,
            (s.link.exchanged first rest).sent ++ List.replicate more.length (contFrame s.cfg), false⟩ })

/-- The bound over a whole operation: a card that answers every exchange with 0x91AF gets exactly `CHAIN_MAX` frames
(the first may have been handed over already), and the operation ends with `CHAIN_TOO_LONG` and no data (43_framer
R189; 70_reset_and_hazards R262). That the last test is a step of its own, hence the `+ 1`, is the model's choice
(log 11). -/
def Obligations.EndlessChainIsCutOff : Prop :=
  ∀ (i : Instr) (first : Bytes) (more : List Bytes) (rest : List Answer) (s : State),
    s.phase = .busy → decode s.d = .ok i → i.isChain = true → s.host = [] → s.iter = 0 → sends i s first →
    more.length = s.cfg.chainMax → (∀ r ∈ more, r.length + 2 ≤ s.cfg.frameMax) →
    s.link.answers = more.map (fun r => .ok (r ++ [0x91#8, 0xAF#8])) ++ rest →
    Host.Core.run Sys2Proof.core (s.cfg.chainMax + 1) s =
      .next (complete ⟨0x22#8, s.cfg.chainMax, s.cfg.chainMax, []⟩
        { s with link := ⟨rest,
            (s.link.exchanged first rest).sent ++ List.replicate (s.cfg.chainMax - 1) (contFrame s.cfg), false⟩ })

/-! ### Byte spaces -/

/-- `MemRead` is the range where it is defined, and `MemWrite` is read back: the bytes placed at their offsets, every
byte before and after them as it was (20_memory R41). -/
def Obligations.MemoryReadAfterWrite : Prop :=
  ∀ (m v : Memory) (a b : Nat), a ≤ m.length →
    readByte (memWrite m a v) b =
      (if a ≤ b ∧ b < a + v.length then v[b - a]? else readByte m b) ∧
    memRead (memWrite m a v) a v.length = some v ∧
    (∀ n, (memRead m a n).isSome = decide (a + n ≤ m.length))

/-! ### The whole machine -/

/-- No step ends in a fault or a refusal, in any state: the undefined `MemRead` never happens (20_memory R41), and
every operation has a meaning. -/
def Obligations.EveryStepAnswersNext : Prop :=
  ∀ s : State, ∃ t, step s = .next t

/-- The invariant holds at reset. -/
def Obligations.ResetSatisfiesInv : Prop := Inv State.reset

/-- Every step keeps the invariant, whatever the host and the collaborator do. -/
def Obligations.StepKeepsInv : Prop :=
  ∀ s t : State, Inv s → step s = .next t → Inv t

/-- Every step keeps `RES.expected` and `RES.actual` within the widths of 10_state R28, when `CHAIN_MAX` itself fits
the width of `expected` (log 3). -/
def Obligations.StepKeepsResultWidths : Prop :=
  ∀ s t : State, Inv s → s.cfg.chainMax < 2 ^ max 16 s.cfg.lenW → Result.fits s.cfg s.res →
    step s = .next t → Result.fits t.cfg t.res

/-- The descriptor latch is written only by an accepted START, as a copy of what was presented, and cleared only by
reset; no step changes the parameters (10_state R21, R26). -/
def Obligations.LatchWrittenOnlyByHost : Prop :=
  ∀ s t : State, step s = .next t →
    t.cfg = s.cfg ∧
    (t.d = s.d ∨
      (∃ d rest, s.host = .start d :: rest ∧ s.phase = .idle ∧ t.d = d) ∨
      (∃ rest, s.host = .reset :: rest ∧ t.d.iv = [] ∧ t.d.key = [] ∧ t.d.msg = []))

/-- Only completion and reset leave BUSY, only an accepted START enters it (10_state R29; 70_reset_and_hazards R253,
R254, R262). -/
def Obligations.PhaseChanges : Prop :=
  ∀ s t : State, step s = .next t →
    (s.phase = .busy → t.phase = .idle →
      (t.done = true ∧ t.acc = [] ∧ t.iter = 0 ∧ t.txf = []) ∨ ∃ rest, s.host = .reset :: rest) ∧
    (s.phase = .idle → t.phase = .busy → t.done = false ∧ ∃ rest, s.host = .start t.d :: rest)

/-- Termination (70_reset_and_hazards R261): in every state of the invariant, an operation in progress ends within
`CHAIN_MAX - ITER + 1` steps and `CHAIN_MAX - ITER` frames, provided the collaborator answers each exchange. -/
def Obligations.EveryOperationEnds : Prop :=
  ∀ s : State, Inv s → s.phase = .busy → s.host = [] →
    s.cfg.chainMax - s.iter ≤ s.link.answers.length →
    (∀ a ∈ s.link.answers.take (s.cfg.chainMax - s.iter), a ≠ .silent) →
    ∃ (n : Nat) (t : State), n ≤ s.cfg.chainMax - s.iter + 1 ∧ Host.Core.run Sys2Proof.core n s = .next t ∧
      t.phase = .idle ∧ t.done = true ∧ t.d = s.d ∧
      t.link.sent.length ≤ s.link.sent.length + (s.cfg.chainMax - s.iter)

/-- Nothing carries over from one operation to the next (10_state R32): start the same descriptor in two idle engines
with the same parameters and the same collaborator, whatever either did before; then after any number of steps they
have sent the same further frames, are in the same phase, and once idle show the same result. That the two counters
of free values agree says that the collaborator's failures have the same reasons (log 5). -/
def Obligations.NothingCarriesOver : Prop :=
  ∀ (d : Descriptor) (s s' : State), Inv s → Inv s' → s.phase = .idle → s'.phase = .idle →
    d.presentable s.cfg = true → s'.cfg = s.cfg → s.host = [] → s'.host = [] →
    s'.link.answers = s.link.answers → s'.freeCount = s.freeCount →
    ∀ n, ∃ t t' : State,
      Host.Core.run Sys2Proof.core n (start d s) = .next t ∧
      Host.Core.run Sys2Proof.core n (start d s') = .next t' ∧
      t'.phase = t.phase ∧ t'.done = t.done ∧ t'.acc = t.acc ∧ t'.iter = t.iter ∧ t'.txf = t.txf ∧
      (t.phase = .idle → t'.res = t.res) ∧
      ∃ new, t.link.sent = s.link.sent ++ new ∧ t'.link.sent = s'.link.sent ++ new
end

