-- ==== Sys2Proof/Laws/PerInstr.lean ====
section
/-!
SUPPORT. A family of one lemma per constructor: the encoder writes the operation's tabled code, and that code's unit
field is the framer's exactly when the operation is no cipher operation (30_encoding R60, R61, R64).
-/

namespace Sys2Proof.Laws.EncodedCode

/-- What the family says of one operation. -/
def Statement (i : Instr) : Prop :=
  (encode i).op = opcode i ∧ (opcode i ∈ legalCodes) ∧ (opUnit (opcode i) = 0x4#4 ↔ i.isCipher = false)

theorem aesEnc (iv key msg : Bytes) :
    Statement (.aesEnc iv key msg) := ⟨rfl, by simp [opcode, legalCodes], by simp [opcode, opUnit, Instr.isCipher]⟩
theorem aesDec (iv key msg : Bytes) :
    Statement (.aesDec iv key msg) := ⟨rfl, by simp [opcode, legalCodes], by simp [opcode, opUnit, Instr.isCipher]⟩
theorem aesDecR (iv key msg : Bytes) (offset length : Nat) :
    Statement (.aesDecR iv key msg offset length) := ⟨rfl, by simp [opcode, legalCodes], by simp [opcode, opUnit, Instr.isCipher]⟩
theorem tdesEnc (iv key msg : Bytes) :
    Statement (.tdesEnc iv key msg) := ⟨rfl, by simp [opcode, legalCodes], by simp [opcode, opUnit, Instr.isCipher]⟩
theorem tdesDec (iv key msg : Bytes) :
    Statement (.tdesDec iv key msg) := ⟨rfl, by simp [opcode, legalCodes], by simp [opcode, opUnit, Instr.isCipher]⟩
theorem tdesDecR (iv key msg : Bytes) (offset length : Nat) :
    Statement (.tdesDecR iv key msg offset length) := ⟨rfl, by simp [opcode, legalCodes], by simp [opcode, opUnit, Instr.isCipher]⟩
theorem tdesDecZ (key msg : Bytes) :
    Statement (.tdesDecZ key msg) := ⟨rfl, by simp [opcode, legalCodes], by simp [opcode, opUnit, Instr.isCipher]⟩
theorem tdesDecZR (key msg : Bytes) (offset length : Nat) :
    Statement (.tdesDecZR key msg offset length) := ⟨rfl, by simp [opcode, legalCodes], by simp [opcode, opUnit, Instr.isCipher]⟩
theorem sendCmd (msg : Bytes) (cmd : Byte) (expect : BitVec 16) :
    Statement (.sendCmd msg cmd expect) := ⟨rfl, by simp [opcode, legalCodes], by simp [opcode, opUnit, Instr.isCipher]⟩
theorem sendCmdR (msg : Bytes) (offset length : Nat) (cmd : Byte) (expect : BitVec 16) :
    Statement (.sendCmdR msg offset length cmd expect) := ⟨rfl, by simp [opcode, legalCodes], by simp [opcode, opUnit, Instr.isCipher]⟩
theorem sendChain (msg : Bytes) (cmd : Byte) :
    Statement (.sendChain msg cmd) := ⟨rfl, by simp [opcode, legalCodes], by simp [opcode, opUnit, Instr.isCipher]⟩
theorem sendChainR (msg : Bytes) (offset length : Nat) (cmd : Byte) :
    Statement (.sendChainR msg offset length cmd) := ⟨rfl, by simp [opcode, legalCodes], by simp [opcode, opUnit, Instr.isCipher]⟩
theorem sendApduChain (msg : Bytes) :
    Statement (.sendApduChain msg) := ⟨rfl, by simp [opcode, legalCodes], by simp [opcode, opUnit, Instr.isCipher]⟩

end Sys2Proof.Laws.EncodedCode
end

