-- ==== Sys2Proof/Tests/Slice0.lean ====
section
/-!
SUPPORT. The model's own tests: words written out from the encoding tables, what the well-formedness checks refuse, one
step of each operation on the vectors of 95_test_vectors, and for every statement that has hypotheses a concrete state
and operands that meet them.
-/

set_option maxRecDepth 100000

namespace Sys2Proof.Tests

open Sys2Proof.Machine

/-- The `n` bytes a hexadecimal string of 95_test_vectors stands for, index 0 leftmost. -/
def hex (n v : Nat) : Bytes := (List.range n).map fun i => BitVec.ofNat 8 (v / 256 ^ (n - 1 - i))

/-- A busy engine with descriptor `d` latched, in front of a collaborator that will answer `as`. -/
def ready (d : Descriptor) (as : List Answer) : State :=
  { State.reset with d := d, phase := .busy, link := { answers := as, sent := [], outstanding := false } }

/-- The result latch after a step that answers a next state. -/
def resultOf : Host.Outcome State Fault Refusal → Option Result
  | .next t => some t.res
  | .fault _ => none
  | .refused _ => none

/-- The frames sent and the result, after a step that answers a next state. -/
def sentOf : Host.Outcome State Fault Refusal → Option (List Bytes × Result)
  | .next t => some (t.link.sent, t.res)
  | .fault _ => none
  | .refused _ => none

/-- The progress of a chain operation (10_state R30), and the frames sent. -/
structure Progress where
  phase : Phase
  iter : Nat
  acc : Bytes
  txf : Bytes
  sent : List Bytes
  deriving DecidableEq

/-- The progress after a step that answers a next state. -/
def chainOf : Host.Outcome State Fault Refusal → Option Progress
  | .next t => some ⟨t.phase, t.iter, t.acc, t.txf, t.link.sent⟩
  | .fault _ => none
  | .refused _ => none

/-! ### Decoding: the words of 30_encoding R64, bit by bit, with every operand field filled -/

theorem test_decode_aes :
    decode ⟨0b00010000#8, [1], [2], [3], 4, 5, 6, 7⟩ = .ok (.aesEnc [1] [2] [3]) ∧
    decode ⟨0b00010001#8, [1], [2], [3], 4, 5, 6, 7⟩ = .ok (.aesDec [1] [2] [3]) ∧
    decode ⟨0b00010011#8, [1], [2], [3], 4, 5, 6, 7⟩ = .ok (.aesDecR [1] [2] [3] 4 5) := ⟨rfl, rfl, rfl⟩

theorem test_decode_tdes :
    decode ⟨0b00100000#8, [1], [2], [3], 4, 5, 6, 7⟩ = .ok (.tdesEnc [1] [2] [3]) ∧
    decode ⟨0b00100001#8, [1], [2], [3], 4, 5, 6, 7⟩ = .ok (.tdesDec [1] [2] [3]) ∧
    decode ⟨0b00100011#8, [1], [2], [3], 4, 5, 6, 7⟩ = .ok (.tdesDecR [1] [2] [3] 4 5) ∧
    decode ⟨0b00100101#8, [1], [2], [3], 4, 5, 6, 7⟩ = .ok (.tdesDecZ [2] [3]) ∧
    decode ⟨0b00100111#8, [1], [2], [3], 4, 5, 6, 7⟩ = .ok (.tdesDecZR [2] [3] 4 5) := ⟨rfl, rfl, rfl, rfl, rfl⟩

theorem test_decode_framer :
    decode ⟨0b01000000#8, [1], [2], [3], 4, 5, 6, 7⟩ = .ok (.sendCmd [3] 6 7) ∧
    decode ⟨0b01000010#8, [1], [2], [3], 4, 5, 6, 7⟩ = .ok (.sendCmdR [3] 4 5 6 7) ∧
    decode ⟨0b01000100#8, [1], [2], [3], 4, 5, 6, 7⟩ = .ok (.sendChain [3] 6) ∧
    decode ⟨0b01000110#8, [1], [2], [3], 4, 5, 6, 7⟩ = .ok (.sendChainR [3] 4 5 6) ∧
    decode ⟨0b01001000#8, [1], [2], [3], 4, 5, 6, 7⟩ = .ok (.sendApduChain [3]) := ⟨rfl, rfl, rfl, rfl, rfl⟩

/-- The reserved values nearest the legal ones (30_encoding R65), by the rule that reserves them. -/
theorem test_decode_reserved :
    decode (.bare 0x00#8) = .error .unit ∧ decode (.bare 0x30#8) = .error .unit ∧
    decode (.bare 0x12#8) = .error .encryptRange ∧ decode (.bare 0x15#8) = .error .aesZeroIv ∧
    decode (.bare 0x18#8) = .error .cipherBit3 ∧ decode (.bare 0x22#8) = .error .encryptRange ∧
    decode (.bare 0x24#8) = .error .encryptZeroIv ∧ decode (.bare 0x41#8) = .error .framerBit0 ∧
    decode (.bare 0x4A#8) = .error .apduRange ∧ decode (.bare 0x4C#8) = .error .framerKind3 :=
  ⟨rfl, rfl, rfl, rfl, rfl, rfl, rfl, rfl, rfl, rfl⟩

theorem test_decodeTableWord :
    decodeTableWord 8 0x13 = some (.aesDecR [] [] [] 0 0) ∧ decodeTableWord 8 0x48 = some (.sendApduChain []) ∧
    decodeTableWord 8 0x14 = none := by decide

/-- The next step after `withFetchWord` runs the word: an empty key is an error of the AES unit (60_exceptions R222). -/
theorem test_withFetchWord :
    resultOf (step (State.reset.withFetchWord 8 0x10)) = some ⟨0x11#8, 16, 0, []⟩ := by decide

/-! ### Well-formedness: an ill-formed term for each check, with two-bit lengths -/

/-- Parameters with `LEN_W = 2`: the longest sequence has three bytes. -/
def tiny : Params := { lenW := 2 }

/-- A sequence too long for `tiny`. -/
def long : Bytes := [0, 0, 0, 0]

theorem test_wf_accepts : (Instr.aesDecR [1, 2, 3] [1, 2, 3] [1, 2, 3] 3 3).wf tiny = true ∧ tiny.wf = true := by
  decide

theorem test_wf_refuses_cipher :
    (Instr.aesEnc long [] []).wf tiny = false ∧ (Instr.aesEnc [] long []).wf tiny = false ∧
    (Instr.aesEnc [] [] long).wf tiny = false ∧ (Instr.aesDec long [] []).wf tiny = false ∧
    (Instr.aesDec [] long []).wf tiny = false ∧ (Instr.aesDec [] [] long).wf tiny = false ∧
    (Instr.aesDecR long [] [] 0 0).wf tiny = false ∧ (Instr.aesDecR [] long [] 0 0).wf tiny = false ∧
    (Instr.aesDecR [] [] long 0 0).wf tiny = false ∧ (Instr.aesDecR [] [] [] 4 0).wf tiny = false ∧
    (Instr.aesDecR [] [] [] 0 4).wf tiny = false ∧ (Instr.tdesEnc long [] []).wf tiny = false ∧
    (Instr.tdesEnc [] long []).wf tiny = false ∧ (Instr.tdesEnc [] [] long).wf tiny = false ∧
    (Instr.tdesDec long [] []).wf tiny = false ∧ (Instr.tdesDec [] long []).wf tiny = false ∧
    (Instr.tdesDec [] [] long).wf tiny = false ∧ (Instr.tdesDecR long [] [] 0 0).wf tiny = false ∧
    (Instr.tdesDecR [] long [] 0 0).wf tiny = false ∧ (Instr.tdesDecR [] [] long 0 0).wf tiny = false ∧
    (Instr.tdesDecR [] [] [] 4 0).wf tiny = false ∧ (Instr.tdesDecR [] [] [] 0 4).wf tiny = false ∧
    (Instr.tdesDecZ long []).wf tiny = false ∧ (Instr.tdesDecZ [] long).wf tiny = false ∧
    (Instr.tdesDecZR long [] 0 0).wf tiny = false ∧ (Instr.tdesDecZR [] long 0 0).wf tiny = false ∧
    (Instr.tdesDecZR [] [] 4 0).wf tiny = false ∧ (Instr.tdesDecZR [] [] 0 4).wf tiny = false := by decide

theorem test_wf_refuses_framer :
    (Instr.sendCmd long 0 0).wf tiny = false ∧ (Instr.sendCmdR long 0 0 0 0).wf tiny = false ∧
    (Instr.sendCmdR [] 4 0 0 0).wf tiny = false ∧ (Instr.sendCmdR [] 0 4 0 0).wf tiny = false ∧
    (Instr.sendChain long 0).wf tiny = false ∧ (Instr.sendChainR long 0 0 0).wf tiny = false ∧
    (Instr.sendChainR [] 4 0 0).wf tiny = false ∧ (Instr.sendChainR [] 0 4 0).wf tiny = false ∧
    (Instr.sendApduChain long).wf tiny = false := by decide

theorem test_presentable_refuses :
    ({ Descriptor.bare 0 with iv := long }).presentable tiny = false ∧
    ({ Descriptor.bare 0 with key := long }).presentable tiny = false ∧
    ({ Descriptor.bare 0 with msg := long }).presentable tiny = false ∧
    ({ Descriptor.bare 0 with offset := 4 }).presentable tiny = false ∧
    ({ Descriptor.bare 0 with length := 4 }).presentable tiny = false ∧
    ({ tiny with chainMax := 0 } : Params).wf = false := by decide

/-! ### One step of each operation, on the vectors of 95_test_vectors -/

/-- `K_A`. -/
def keyA : Bytes := hex 16 0x2B7E151628AED2A6ABF7158809CF4F3C
/-- `IV_A`. -/
def ivA : Bytes := hex 16 0x000102030405060708090A0B0C0D0E0F
/-- `BUF_A`. -/
def bufA : Bytes := hex 36 0xAABB7649ABAC8119B246CEE98E9B12E9197D5086CB9B507219EE95DB113A917678B29100
/-- `K_T`. -/
def keyT : Bytes := hex 24 0x0123456789ABCDEF23456789ABCDEF01456789ABCDEF0123
/-- `BUF_T`. -/
def bufT : Bytes := hex 27 0x0063693C3D378A862F8051AE7C2934A296AA6C3102B6E5B79E9100

/-- The descriptor of a cipher operation. -/
def cipherDesc (op : Byte) (iv key msg : Bytes) (off len : Nat) : Descriptor :=
  { Descriptor.bare op with iv := iv, key := key, msg := msg, offset := off, length := len }

/-- VA1 (FIPS 197 C.1). -/
theorem test_aesEnc_va1 :
    resultOf (step (ready (cipherDesc 0x10#8 (hex 16 0) (hex 16 0x000102030405060708090A0B0C0D0E0F)
      (hex 16 0x00112233445566778899AABBCCDDEEFF) 0 0) [])) =
    some ⟨0x00#8, 0, 0, hex 16 0x69C4E0D86A7B0430D8CDB78070B4C55A⟩ := by decide +kernel

/-- VA6: a fifteen-byte key. -/
theorem test_aesEnc_va6 :
    resultOf (step (ready (cipherDesc 0x10#8 ivA (hex 15 0x2B7E151628AED2A6ABF7158809CF4F)
      (hex 16 0x6BC1BEE22E409F96E93D7E117393172A) 0 0) [])) = some ⟨0x11#8, 16, 15, []⟩ := by decide +kernel

/-- The first block of VA3. -/
theorem test_aesDec_va3 :
    resultOf (step (ready (cipherDesc 0x11#8 ivA keyA (hex 16 0x7649ABAC8119B246CEE98E9B12E9197D) 0 0) [])) =
    some ⟨0x00#8, 0, 0, hex 16 0x6BC1BEE22E409F96E93D7E117393172A⟩ := by decide +kernel

/-- VA7: an eight-byte IV. -/
theorem test_aesDec_va7 :
    resultOf (step (ready (cipherDesc 0x11#8 (hex 8 0x0001020304050607) keyA
      (hex 16 0x6BC1BEE22E409F96E93D7E117393172A) 0 0) [])) = some ⟨0x12#8, 16, 8, []⟩ := by decide +kernel

/-- VA4: two chained blocks between a header and a trailer. -/
theorem test_aesDecR_va4 :
    resultOf (step (ready (cipherDesc 0x13#8 ivA keyA bufA 2 32) [])) =
    some ⟨0x00#8, 0, 0, hex 32 0x6BC1BEE22E409F96E93D7E117393172AAE2D8A571E03AC9C9EB76FAC45AF8E51⟩ := by
  decide +kernel

/-- VA10b: the range is tested before the block length. -/
theorem test_aesDecR_va10b :
    resultOf (step (ready (cipherDesc 0x13#8 ivA keyA bufA 10 33) [])) = some ⟨0x42#8, 36, 43, []⟩ := by
  decide +kernel

/-- The first block of VT1. -/
theorem test_tdesEnc_vt1 :
    resultOf (step (ready (cipherDesc 0x20#8 (hex 8 0xF69F2445DF4F9B17) keyT (hex 8 0x5468652071756963) 0 0) [])) =
    some ⟨0x00#8, 0, 0, hex 8 0x63693C3D378A862F⟩ := by decide +kernel

/-- VT8: twelve bytes. -/
theorem test_tdesEnc_vt8 :
    resultOf (step (ready (cipherDesc 0x20#8 (hex 8 0xF69F2445DF4F9B17) keyT
      (hex 12 0x54686520717569636B206272) 0 0) [])) = some ⟨0x13#8, 8, 12, []⟩ := by decide +kernel

/-- VT7: a sixteen-byte IV. -/
theorem test_tdesDec_vt7 :
    resultOf (step (ready (cipherDesc 0x21#8 (hex 16 0) keyT (hex 8 0x63693C3D378A862F) 0 0) [])) =
    some ⟨0x12#8, 8, 16, []⟩ := by decide +kernel

/-- VT5c. -/
theorem test_tdesDecR_vt5c :
    resultOf (step (ready (cipherDesc 0x23#8 (hex 8 0x63693C3D378A862F) keyT bufT 9 8) [])) =
    some ⟨0x00#8, 0, 0, hex 8 0x6B2062726F776E20⟩ := by decide +kernel

/-- VT11, with sixteen bytes in `D.IV`, which are not looked at (VT7b). -/
theorem test_tdesDecZ_vt11 :
    resultOf (step (ready (cipherDesc 0x25#8 (hex 16 0) keyT [] 0 0) [])) = some ⟨0x00#8, 0, 0, []⟩ := by
  decide +kernel

/-- VT9: the range is out of bounds. -/
theorem test_tdesDecZR_vt9 :
    resultOf (step (ready (cipherDesc 0x27#8 [] keyT bufT 4 24) [])) = some ⟨0x42#8, 27, 28, []⟩ := by decide +kernel

/-- VT12: the key is tested before the range and the block length. -/
theorem test_tdesDecZR_vt12 :
    resultOf (step (ready (cipherDesc 0x27#8 [] (keyT.take 16) bufT 4 23) [])) = some ⟨0x11#8, 24, 16, []⟩ := by
  decide +kernel

/-- The descriptor of a framer operation. -/
def framerDesc (op : Byte) (msg : Bytes) (off len : Nat) (cmd : Byte) (expect : BitVec 16) : Descriptor :=
  { Descriptor.bare op with msg := msg, offset := off, length := len, cmd := cmd, expect := expect }

/-- VF2c: data before a wrong status word is discarded. -/
theorem test_sendCmd_vf2c :
    sentOf (step (ready (framerDesc 0x40#8 (hex 3 0x010203) 0 0 0x5A#8 0x9100#16) [.ok (hex 6 0xDEADBEEF9186)])) =
    some ([hex 9 0x905A00000301020300], ⟨0x21#8, 0x9100, 0x9186, []⟩) := by decide +kernel

/-- VF4: 0x91AF as the expected status word. -/
theorem test_sendCmd_vf4 :
    sentOf (step (ready (framerDesc 0x40#8 [0x00#8] 0 0 0xAA#8 0x91AF#16)
      [.ok (hex 18 0xB969FDFE56FD91FC9DE6F6F213B8FD1E91AF)])) =
    some ([hex 7 0x90AA0000010000], ⟨0x00#8, 0, 0, hex 16 0xB969FDFE56FD91FC9DE6F6F213B8FD1E⟩) := by decide +kernel

/-- VF6: Lc is the length of the range. -/
theorem test_sendCmdR_vf6 :
    sentOf (step (ready (framerDesc 0x42#8 (hex 14 0xFFFF01000000030000AABBCCEEEE) 2 10 0x3D#8 0x9100#16)
      [.ok (hex 2 0x9100)])) =
    some ([hex 16 0x903D00000A01000000030000AABBCC00], ⟨0x00#8, 0, 0, []⟩) := by decide +kernel

/-- VF12: the range is out of bounds, and nothing is sent. -/
theorem test_sendCmdR_vf12 :
    sentOf (step (ready (framerDesc 0x42#8 (hex 2 0x0102) 1 2 0x3D#8 0x9100#16) [.ok (hex 2 0x9100)])) =
    some ([], ⟨0x42#8, 2, 3, []⟩) := by decide +kernel

/-- The first pass of VF1 (VS6). -/
theorem test_sendChain_vf1 :
    chainOf (step (ready (framerDesc 0x44#8 [] 0 0 0x60#8 0) [.ok (hex 9 0x0401013300160591AF)])) =
    some ⟨.busy, 1, hex 7 0x04010133001605, hex 5 0x90AF000000, [hex 5 0x9060000000]⟩ := by decide +kernel

/-- VF18b: the status word is big-endian. -/
theorem test_sendChain_vf18b :
    sentOf (step (ready (framerDesc 0x44#8 [] 0 0 0x60#8 0) [.ok (hex 3 0xAAAF91)])) =
    some ([hex 5 0x9060000000], ⟨0x21#8, 0x9100, 0xAF91, []⟩) := by decide +kernel

/-- The first pass of VF7. -/
theorem test_sendChainR_vf7 :
    chainOf (step (ready (framerDesc 0x46#8 (hex 8 0xEE01000000000000) 1 7 0xBD#8 0) [.ok (hex 4 0x010291AF)])) =
    some ⟨.busy, 1, hex 2 0x0102, hex 5 0x90AF000000, [hex 13 0x90BD0000070100000000000000]⟩ := by decide +kernel

/-- The second pass of VF7. -/
theorem test_sendChainR_vf7_second :
    sentOf (step { ready (framerDesc 0x46#8 (hex 8 0xEE01000000000000) 1 7 0xBD#8 0) [.ok (hex 3 0x039100)] with
      iter := 1, acc := hex 2 0x0102, txf := hex 5 0x90AF000000 }) =
    some ([hex 5 0x90AF000000], ⟨0x00#8, 0, 0, hex 3 0x010203⟩) := by decide +kernel

/-- VF8: the APDU is sent as it is. -/
theorem test_sendApduChain_vf8 :
    sentOf (step (ready (framerDesc 0x48#8 (hex 9 0x905A00000301020300) 0 0 0 0) [.ok (hex 2 0x9100)])) =
    some ([hex 9 0x905A00000301020300], ⟨0x00#8, 0, 0, []⟩) := by decide +kernel

/-- The six-byte reading of a command without parameters (VF15), in the continuation frame of VF8's operation. -/
theorem test_sendApduChain_vf15 :
    chainOf (step { ready (framerDesc 0x48#8 (hex 6 0x906000000000) 0 0 0 0) [.ok (hex 3 0x0191AF)] with
      cfg := { emptyLcOmitted := false } }) =
    some ⟨.busy, 1, hex 1 0x01, hex 6 0x90AF00000000, [hex 6 0x906000000000]⟩ := by decide +kernel

/-- VF9, last step: three exchanges answered 0x91AF, no fourth. -/
theorem test_chain_too_long_vf9 :
    sentOf (step { ready (framerDesc 0x44#8 [] 0 0 0x60#8 0) [.ok (hex 3 0x049100)] with
      cfg := { chainMax := 3 }, iter := 3, acc := hex 3 0x010203, txf := hex 5 0x90AF000000 }) =
    some ([], ⟨0x22#8, 3, 3, []⟩) := by decide +kernel

/-- VF10b and VF16: an empty response, and a failure. -/
theorem test_exchange_vf10b_vf16 :
    sentOf (step (ready (framerDesc 0x44#8 [] 0 0 0x60#8 0) [.ok []])) =
      some ([hex 5 0x9060000000], ⟨0x23#8, 2, 0, []⟩) ∧
    sentOf (step (ready (framerDesc 0x40#8 [] 0 0 0x60#8 0x9100#16) [.fail 1])) =
      some ([hex 5 0x9060000000], ⟨0x31#8, 0, 1, []⟩) := by decide +kernel

/-- VF13: no framer. -/
theorem test_unit_absent_vf13 :
    sentOf (step { ready (framerDesc 0x40#8 [] 0 0 0x60#8 0x9100#16) [] with cfg := { hasFramer := false } }) =
    some ([], ⟨0x44#8, 0, 0x40, []⟩) := by decide

/-- VS7: reset inside a chain abandons it. -/
theorem test_reset_vs7 :
    chainOf (step { ready (framerDesc 0x44#8 [] 0 0 0x60#8 0) [] with
      iter := 1, acc := hex 7 0x04010133001605, txf := hex 5 0x90AF000000, host := [.reset] }) =
    some ⟨.idle, 0, [], [], []⟩ := by decide +kernel

/-! ### Witnesses: for every statement with hypotheses, values that meet them together -/

theorem test_hyps_DecodeEncodeInverse :
    ∃ i, decode (framerDesc 0x42#8 [9] 0 1 6 7) = .ok i ∧ (framerDesc 0x42#8 [9] 0 1 6 7).presentable {} = true :=
  ⟨.sendCmdR [9] 0 1 6 7, rfl, by decide⟩

theorem test_hyps_ReservedCodeIsIllegalOp :
    (ready (.bare 0x12#8) []).phase = .busy ∧ (ready (.bare 0x12#8) []).host = [] ∧
    (ready (.bare 0x12#8) []).d.op ∉ legalCodes := ⟨rfl, rfl, by decide⟩

/-- `SEND_APDU_CHAIN` uses the message only, and a reserved code no field at all. -/
theorem test_hyps_UnusedFieldsAreIgnored :
    (ready (.bare 0x48#8) []).phase = .busy ∧ (ready (.bare 0x48#8) []).host = [] ∧
    (∃ t, step { ready (.bare 0#8) [] with d := .bare 0x48#8 } = .next t) ∧
    (∃ t, step { ready (.bare 0#8) [] with d := .bare 0x4A#8 } = .next t) ∧
    (0x48#8 ∉ [0x10#8, 0x11#8, 0x13#8, 0x20#8, 0x21#8, 0x23#8, 0x25#8, 0x27#8]) ∧ (0x4A#8 ∉ legalCodes) ∧
    (0x48#8 ∉ [0x13#8, 0x23#8, 0x27#8, 0x42#8, 0x46#8]) ∧ (0x48#8 ∉ [0x40#8, 0x42#8, 0x44#8, 0x46#8]) :=
  ⟨rfl, rfl, ⟨_, rfl⟩, ⟨_, rfl⟩, by decide, by decide, by decide, by decide⟩

/-- The default of `FRAME_MAX` follows `LEN_W` (00_scope R9). -/
theorem test_frameMax_default :
    ({ lenW := 8 } : Params).frameMax = 255 ∧ State.reset.cfg.frameMax = 65535 := by decide

/-- An answer that comes after a silence, with the frame already handed over: nothing more is sent. -/
theorem test_answer_after_silence :
    sentOf (step { ready (framerDesc 0x40#8 [] 0 0 0x60#8 0x9100#16) [] with
      txf := hex 5 0x9060000000, link := ⟨[.ok (hex 3 0x079100)], [hex 5 0x9060000000], true⟩ }) =
    some ([hex 5 0x9060000000], ⟨0x00#8, 0, 0, [7]⟩) := by decide +kernel

theorem test_hyps_StepRunsDecodedOperation :
    decode (ready (.bare 0x48#8) []).d = .ok (.sendApduChain []) ∧ (ready (.bare 0x48#8) []).phase = .busy ∧
    (ready (.bare 0x48#8) []).host = [] ∧
    ({ ready (.bare 0x48#8) [] with host := [.wait, .reset] }).host = .wait :: [.reset] := ⟨rfl, rfl, rfl, rfl⟩

theorem test_hyps_StartEffect :
    State.reset.phase = .idle ∧ (Descriptor.bare 0x4F#8).presentable State.reset.cfg = true ∧
    (0x4F#8).toNat / 16 = 4 ∧ (Descriptor.bare 0x10#8).presentable State.reset.cfg = true ∧
    ({ State.reset with host := [.start (.bare 0x4F#8)] }).host = [.start (.bare 0x4F#8)] := by decide

theorem test_hyps_StartRefused :
    ({ ready (.bare 0#8) [] with host := [.start (.bare 1#8)] }).phase = .busy ∧
    ({ Descriptor.bare 0 with iv := long }).presentable ({ State.reset with cfg := tiny }).cfg = false := by decide

theorem test_hyps_IdleEngineDoesNothing : State.reset.phase = .idle ∧ State.reset.host = [] := by decide

/-- A reset finds an exchange handed over, and the collaborator silent once before it answers. -/
theorem test_hyps_ResetAbandonsOperation :
    let s := { ready (.bare 0x48#8) [.silent, .ok [1], .fail 2] with
      host := [.reset], link := ⟨[.silent, .ok [1], .fail 2], [[]], true⟩ }
    s.host = .reset :: [] ∧ s.link.outstanding = true ∧ Answer.ok [1] ≠ .silent ∧
    s.link.answers = List.replicate 1 .silent ++ .ok [1] :: [.fail 2] ∧
    ({ s with link := Link.quiet }).link.outstanding = false := by decide

theorem test_hyps_HostSeesOnlyTheResult :
    (ready (.bare 0#8) []).phase = .busy ∧ State.reset.phase = .idle := ⟨rfl, rfl⟩

/-- Good operands, a whole message, and a range that ends at the end of its buffer. -/
theorem test_hyps_AesOperationsComplete :
    keyA.length = 16 ∧ ivA.length = 16 ∧ (bufA.take 32).length % 16 = 0 ∧ 4 + 32 ≤ bufA.length ∧ 32 % 16 = 0 := by
  decide

theorem test_hyps_TdesOperationsComplete :
    keyT.length = 24 ∧ (zeros 8).length = 8 ∧ (bufT.take 24).length % 8 = 0 ∧ 3 + 24 ≤ bufT.length ∧ 24 % 8 = 0 := by
  decide

/-- The operands nearest the good ones, for each clause. -/
theorem test_hyps_AesErrorsInPriorityOrder :
    (keyA.take 15).length ≠ 16 ∧ (0#8 :: keyA).length ≠ 16 ∧ keyA.length = 16 ∧ (ivA.take 15).length ≠ 16 ∧
    ivA.length = 16 ∧ 5 + 32 > bufA.length ∧ 4 + 31 ≤ bufA.length ∧ 31 % 16 ≠ 0 ∧ bufA.length % 16 ≠ 0 := by decide

theorem test_hyps_TdesErrorsInPriorityOrder :
    (keyT.take 23).length ≠ 24 ∧ (0#8 :: keyT).length ≠ 24 ∧ keyT.length = 24 ∧ (zeros 7).length ≠ 8 ∧
    (zeros 8).length = 8 ∧ 4 + 24 > bufT.length ∧ 4 + 23 ≤ bufT.length ∧ 23 % 8 ≠ 0 ∧ bufT.length % 8 ≠ 0 := by
  decide

theorem test_hyps_CipherOperationsFrame :
    (Instr.aesDec ivA keyA []).isCipher = true ∧
    ∃ t, exec (.aesDec ivA keyA []) State.reset = .next t ∧ t.res.code = 0x00#8 := by
  refine ⟨rfl, ?_⟩
  simp [exec, execAesDec, cipherOp_eq, cipherError, wholeOf, ivA, keyA, hex, aesCipher, Config.aesKeyLen,
    Config.aesBlock]

/-- `CipherResultLength` has the hypotheses of the frame and a success; the error side of the frame is met too. -/
theorem test_hyps_CipherOperationsFrame_error :
    ∃ t, exec (.tdesDecZ [] []) State.reset = .next t ∧ t.res.code ≠ 0x00#8 :=
  ⟨_, cipherOp_eq tdesCipher .decrypt (zeros 8) [] [] ⟨0, 0⟩ State.reset, by decide⟩

theorem test_hyps_EmptyRangeSucceeds :
    bufA.length ≤ bufA.length ∧ keyA.length = 16 ∧ ivA.length = 16 ∧ keyT.length = 24 ∧ (zeros 8).length = 8 := by
  decide

theorem test_hyps_PseudoFormsAgree :
    State.reset.cfg.hasFramer = true ∧ 4 + 32 ≤ bufA.length ∧ (zeros 255).length ≤ 255 := by decide

/-- Two buffers that differ before and after the range. -/
theorem test_hyps_BytesOutsideRangeAreNotRead :
    [1#8, 2#8, 3#8].length = [9#8, 2#8, 8#8].length ∧
    ∀ a, 1 ≤ a → a < 1 + 1 → readByte [1#8, 2#8, 3#8] a = readByte [9#8, 2#8, 8#8] a :=
  ⟨rfl, fun a h1 h2 => by obtain rfl : a = 1 := by omega
                          rfl⟩

theorem test_hyps_CipherResultDependsOnOperandsOnly : (Instr.tdesDecZR [] [] 0 0).isCipher = true := rfl

/-- A one-byte key and two messages of one length. -/
theorem test_hyps_CipherErrorShowsLengthsOnly :
    (cipherDesc 0x10#8 [] [1] [2] 0 0).op.toNat / 16 ≠ 4 ∧ (ready (.bare 0#8) []).phase = .busy ∧
    (cipherDesc 0x10#8 [] [3] [4] 0 0).key.length = (cipherDesc 0x10#8 [] [1] [2] 0 0).key.length ∧
    (cipherDesc 0x10#8 [] [3] [4] 0 0).msg.length = (cipherDesc 0x10#8 [] [1] [2] 0 0).msg.length ∧
    ∃ t, step { ready (.bare 0#8) [] with d := cipherDesc 0x10#8 [] [1] [2] 0 0 } = .next t ∧
      t.res.code ≠ 0x00#8 :=
  ⟨by decide, rfl, rfl, rfl, _, cipherOp_eq aesCipher .encrypt [] [1] [2] ⟨0, 1⟩ _, by decide⟩

/-- The identity on one-byte blocks, the smallest cipher record. -/
def plainCipher : Cipher := { block := 1, keyLen := 1, enc := fun _ b => b, dec := fun _ c => c }

/-- `CbcEncryptionRecurrence`, `CbcDecryptionRecurrence` and the general clause of `CbcRoundTrip`. -/
theorem test_hyps_Cbc :
    0 < plainCipher.block ∧ [7#8].length = plainCipher.block ∧ [1#8, 2#8].length = 2 * plainCipher.block ∧
    [1#8, 2#8].length % plainCipher.block = 0 ∧
    (∀ b : Bytes, b.length = plainCipher.block → (plainCipher.enc [] b).length = plainCipher.block) ∧
    (∀ b : Bytes, b.length = plainCipher.block → (plainCipher.dec [] b).length = plainCipher.block) ∧
    (∀ b : Bytes, b.length = plainCipher.block → plainCipher.dec [] (plainCipher.enc [] b) = b) ∧
    0 < 1 ∧ 1 < 2 ∧ [7#8] ≠ blockAt plainCipher.block [1#8, 2#8] (1 - 1) :=
  ⟨by decide, rfl, rfl, rfl, fun _ h => h, fun _ h => h, fun _ _ => rfl, by decide, by decide, by decide⟩

theorem test_hyps_CbcRoundTrip :
    ivA.length = 16 ∧ keyA.length = 16 ∧ (bufA.take 32).length % 16 = 0 ∧ (zeros 8).length = 8 ∧ keyT.length = 24 ∧
    (bufT.take 24).length % 8 = 0 := by decide

/-- A record that differs from `plainCipher` on keys of another size only. -/
theorem test_hyps_PrimitiveCalledOnGoodOperandsOnly :
    let C' : Cipher := { plainCipher with enc := fun k b => if k.length = 1 then b else [] }
    C'.block = plainCipher.block ∧ C'.keyLen = plainCipher.keyLen ∧
    ∀ k b : Bytes, k.length = plainCipher.keyLen → b.length = plainCipher.block →
      C'.enc k b = plainCipher.enc k b ∧ C'.dec k b = plainCipher.dec k b ∧
      (plainCipher.enc k b).length = plainCipher.block :=
  ⟨rfl, rfl, fun _ _ hk hb => ⟨if_pos hk, rfl, hb⟩⟩

theorem test_hyps_FieldArithmetic : (0xFF#8 : Byte) ≠ 0 := by decide

/-- The sixteen-byte operands of `RowShifts`, `ColumnMixes`, `AesKeyExpansion` and `AesPrimitivesInverse`, and the
ends of their indices. -/
theorem test_hyps_aes_blocks :
    ivA.length = 16 ∧ keyA.length = 16 ∧ 3 < 4 ∧ 4 ≤ 4 ∧ 43 < 44 ∧ 10 < 11 ∧
    keyA = [0x2B#8, 0x7E#8, 0x15#8, 0x16#8, 0x28#8, 0xAE#8, 0xD2#8, 0xA6#8, 0xAB#8, 0xF7#8, 0x15#8, 0x88#8, 0x09#8,
      0xCF#8, 0x4F#8, 0x3C#8] := by decide

/-- `DesPrimitivesInverse` and `OneKeyUseIsSingleDes`, and the keys `AesPrimitivesInverse` refuses. -/
theorem test_hyps_des_blocks :
    (hex 8 0x133457799BBCDFF1).length = 8 ∧ (hex 8 0x0123456789ABCDEF).length = 8 ∧ keyT.length = 24 ∧
    (keyT.take 16).length = 16 ∧ (keyA ++ keyA.take 8).length = 24 ∧ (keyA ++ keyA).length = 32 := by decide

/-- The two keys of VT3c. -/
theorem test_hyps_ParityBitsIgnored :
    keyT.length = 24 ∧ (hex 24 0x0022446688AACCEE22446688AACCEE00446688AACCEE0022).length = 24 ∧
    ∀ a, a < 24 → (keyT.getD a 0#8) >>> 1 =
      ((hex 24 0x0022446688AACCEE22446688AACCEE00446688AACCEE0022).getD a 0#8) >>> 1 := by decide +kernel

theorem test_hyps_ParityBitsIgnored_checks :
    keyT.length = 24 ∧ cipherError tdesCipher (zeros 8) keyT bufT ⟨4, 24⟩ = some ⟨.rangeOutOfBounds, 27, 28⟩ := by
  decide +kernel

theorem test_hyps_WrapLayout :
    1 ≤ [0#8].length ∧ [0#8].length ≤ 255 ∧ 1 ≤ (zeros 255).length ∧ (zeros 255).length ≤ 255 := by decide

/-- An idle link in front of a collaborator that answers `as`, on an engine whose frames have at most three bytes and
whose chains have at most two exchanges. -/
def small (as : List Answer) : State :=
  { State.reset with cfg := { frameMax := 3, chainMax := 2 }, phase := .busy, link := ⟨as, [], false⟩ }

/-- The longest response, the longest parameters, and a range that ends at the end of its buffer. -/
theorem test_hyps_SingleExchangeCompletes :
    (small [.ok ([5] ++ [0x91#8, 0xAF#8])]).cfg.hasFramer = true ∧
    (small [.ok ([5] ++ [0x91#8, 0xAF#8])]).link.answers = .ok ([5] ++ [0x91#8, 0xAF#8]) :: [] ∧
    [5#8].length + 2 ≤ (small []).cfg.frameMax ∧
    (0x91AF#16).toNat = 256 * (0x91#8).toNat + (0xAF#8).toNat ∧ (zeros 255).length ≤ 255 ∧
    10 + 255 ≤ (zeros 265).length := by decide

theorem test_hyps_SingleExchangeMismatch :
    (0x9100#16).toNat ≠ 256 * (0x91#8).toNat + (0xAF#8).toNat ∧
    sends (.sendCmd [] 0x60#8 0x9100#16) (small [.ok ([5] ++ [0x91#8, 0xAF#8])]) (wrap (small []).cfg 0x60#8 []) ∧
    sends (.sendCmdR [1] 1 0 0x60#8 0x9100#16) (small []) (wrap (small []).cfg 0x60#8 []) :=
  ⟨by decide, ⟨rfl, by decide, rfl⟩, ⟨rfl, by decide, by decide, rfl⟩⟩

theorem test_hyps_ChainCompletesOnFirstResponse :
    (small []).cfg.hasFramer = true ∧ (small []).iter = 0 ∧ 1 ≤ (small []).cfg.chainMax ∧
    (small [.ok ([5] ++ [0x91#8, 0x00#8])]).link.answers = .ok ([5] ++ [0x91#8, 0x00#8]) :: [] ∧
    [5#8].length + 2 ≤ (small []).cfg.frameMax ∧ (zeros 255).length ≤ 255 ∧ 10 + 255 ≤ (zeros 265).length := by
  decide

/-- A first pass and a later one. -/
theorem test_hyps_ChainPass :
    (Instr.sendChain [1] 2).isChain = true ∧ sends (.sendChain [1] 2) (small []) (wrap (small []).cfg 2 [1]) ∧
    (Instr.sendChainR [1] 0 1 2).isChain = true ∧
    sends (.sendChainR [1] 0 1 2) { small [] with iter := 1, txf := [8] } [8] ∧
    (Instr.sendApduChain [1]).isChain = true ∧ sends (.sendApduChain [1]) (small []) [1] ∧
    (small [.ok ([5] ++ [0x91#8, 0xAE#8])]).link.answers = .ok ([5] ++ [0x91#8, 0xAE#8]) :: [] ∧
    [5#8].length + 2 ≤ (small []).cfg.frameMax := by
  refine ⟨rfl, ⟨by decide, ?_⟩, rfl, ⟨by decide, ?_⟩, rfl, ⟨by decide, ?_⟩, rfl, by decide⟩
  · exact ⟨rfl, by decide, rfl⟩
  · exact (rfl : [8#8] = [8#8])
  · exact ⟨rfl, rfl⟩

theorem test_hyps_ChainBoundReached :
    let s := { small [] with iter := 2 }
    (Instr.sendApduChain []).isChain = true ∧ s.iter ≠ 0 ∧ s.iter = s.cfg.chainMax := by decide

/-- A failure, the longest response that is too short, and the shortest one that is too long. -/
theorem test_hyps_exchange_failures :
    sends (.sendApduChain [1]) (small []) [1] ∧
    (small [.fail 7]).link.answers = .fail 7 :: [] ∧ (small [.ok [1]]).link.answers = .ok [1] :: [] ∧
    [1#8].length < 2 ∧ [1#8].length ≤ (small []).cfg.frameMax ∧
    (small []).cfg.frameMax < [1#8, 2#8, 3#8, 4#8].length :=
  ⟨⟨by decide, rfl, rfl⟩, rfl, rfl, by decide, by decide, by decide⟩

theorem test_hyps_FramerErrorsInPriorityOrder :
    (small []).iter = 0 ∧ ({ small [] with cfg := { hasFramer := false } }).cfg.hasFramer = false ∧
    (small []).cfg.hasFramer = true ∧ 1 + 1 > [1#8].length ∧ 0 + 256 ≤ (zeros 256).length ∧ 256 > 255 ∧
    (zeros 256).length > 255 := by decide

theorem test_hyps_UnansweredExchangeWaits :
    sends (.sendApduChain [1]) (small []) [1] ∧ (small []).link.answers = [] ∧
    ∃ rest, (small [.silent, .fail 1]).link.answers = .silent :: rest :=
  ⟨⟨by decide, rfl, rfl⟩, rfl, _, rfl⟩

theorem test_hyps_FramerOperationsFrame :
    (Instr.sendApduChain [1]).isCipher = false ∧ ∃ t, exec (.sendApduChain [1]) (small []) = .next t :=
  ⟨rfl, _, execSendApduChain_eq [1] (small [])⟩

/-- A started `SEND_APDU_CHAIN` on an engine with `CHAIN_MAX = 2`. -/
def started (as : List Answer) : State := { small as with d := { Descriptor.bare 0x48#8 with msg := [1] } }

/-- Exactly `CHAIN_MAX` responses. -/
theorem test_hyps_ChainAccumulatesAllFragments :
    let s := started [.ok [5, 0x91, 0xAF], .ok [6, 0x91, 0x00]]
    s.phase = .busy ∧ decode s.d = .ok (.sendApduChain [1]) ∧ s.host = [] ∧ s.iter = 0 ∧
    sends (.sendApduChain [1]) s [1] ∧ [[5#8]].length + 1 ≤ s.cfg.chainMax ∧
    (∀ r ∈ [6#8] :: [[5#8]], r.length + 2 ≤ s.cfg.frameMax) ∧
    s.link.answers = [[5#8]].map (fun r => .ok (r ++ [0x91#8, 0xAF#8])) ++ .ok ([6] ++ [0x91#8, 0x00#8]) :: [] :=
  ⟨rfl, rfl, rfl, rfl, ⟨by decide, rfl, rfl⟩, by decide, by decide, rfl⟩

theorem test_hyps_EndlessChainIsCutOff :
    let s := started [.ok [5, 0x91, 0xAF], .ok [6, 0x91, 0xAF], .ok [7, 0x91, 0x00]]
    s.phase = .busy ∧ decode s.d = .ok (.sendApduChain [1]) ∧ s.host = [] ∧ s.iter = 0 ∧
    sends (.sendApduChain [1]) s [1] ∧ [[5#8], [6#8]].length = s.cfg.chainMax ∧
    (∀ r ∈ [[5#8], [6#8]], r.length + 2 ≤ s.cfg.frameMax) ∧
    s.link.answers = [[5#8], [6#8]].map (fun r => .ok (r ++ [0x91#8, 0xAF#8])) ++ [.ok [7, 0x91, 0x00]] :=
  ⟨rfl, rfl, rfl, rfl, ⟨by decide, rfl, rfl⟩, rfl, by decide, rfl⟩

theorem test_hyps_MemoryReadAfterWrite : 3 ≤ [1#8, 2#8, 3#8].length ∧ 3 ≤ 4 ∧ 4 < 3 + [4#8, 5#8].length := by decide

/-- A chain after its first exchange, with the second frame handed over and not yet answered. -/
def midChain : State :=
  { started [.ok [6, 0x91, 0x00]] with
    acc := [5], iter := 1, txf := hex 5 0x90AF000000, link := ⟨[.ok [6, 0x91, 0x00]], [[1], hex 5 0x90AF000000], true⟩ }

theorem test_midChain_ready : framerReady true midChain := ⟨.sendApduChain [1], rfl, rfl, rfl, rfl⟩

/-- The invariant holds in a state that is neither reset nor idle. -/
theorem test_midChain_inv : Inv midChain where
  paramsOk := rfl
  latchFits := by decide
  resLegal := .inl ⟨rfl, rfl, rfl⟩
  doneIdle := fun h => nomatch h
  noResultYet := fun h => nomatch h
  workCleared := rfl
  idleDiscarded := fun h => nomatch h
  iterBound := by decide
  accBound := by decide
  continuing := fun _ => ⟨rfl, test_midChain_ready, by decide⟩
  outstandingBusy := fun _ => ⟨rfl, .inr ⟨test_midChain_ready, by decide⟩⟩

/-- An idle engine that has completed an operation with an error. -/
def spent : State :=
  { State.reset with res := ⟨0x42#8, 36, 37, []⟩, done := true, link := ⟨[.ok [0x91, 0x00]], [[1]], false⟩ }

theorem test_spent_inv : Inv spent where
  paramsOk := rfl
  latchFits := by decide
  resLegal := .inr ⟨.rangeOutOfBounds, rfl, rfl⟩
  doneIdle := fun _ => rfl
  noResultYet := fun _ h => nomatch h
  workCleared := rfl
  idleDiscarded := fun _ => ⟨rfl, rfl, rfl⟩
  iterBound := by decide
  accBound := by decide
  continuing := fun h => absurd rfl h
  outstandingBusy := fun h => nomatch h

/-- The step of `midChain` completes the operation: `StepKeepsInv`, `LatchWrittenOnlyByHost`, `EveryStepAnswersNext`
and the first clause of `PhaseChanges` speak of it. -/
theorem test_hyps_StepKeepsInv :
    Inv midChain ∧ midChain.phase = .busy ∧ ∃ t, step midChain = .next t ∧ t.phase = .idle ∧ t.res.data = [5, 6] :=
  ⟨test_midChain_inv, rfl, _, rfl, by decide, by decide⟩

theorem test_hyps_PhaseChanges :
    State.reset.phase = .idle ∧
    ∃ t, step { State.reset with host := [.start (.bare 0x10#8)] } = .next t ∧ t.phase = .busy := ⟨rfl, _, rfl, by decide⟩

theorem test_hyps_StepKeepsResultWidths :
    Inv midChain ∧ midChain.cfg.chainMax < 2 ^ max 16 midChain.cfg.lenW ∧ Result.fits midChain.cfg midChain.res :=
  ⟨test_midChain_inv, by decide, by decide, by decide⟩

/-- One exchange is left, it is answered, and the operation ends. -/
theorem test_hyps_EveryOperationEnds :
    Inv midChain ∧ midChain.phase = .busy ∧ midChain.host = [] ∧
    midChain.cfg.chainMax - midChain.iter ≤ midChain.link.answers.length ∧
    ∀ a ∈ midChain.link.answers.take (midChain.cfg.chainMax - midChain.iter), a ≠ .silent :=
  ⟨test_midChain_inv, rfl, rfl, by decide, by decide⟩

/-- A fresh engine and one that has completed an operation, in front of the same collaborator. -/
theorem test_hyps_NothingCarriesOver :
    let fresh := { State.reset with link := ⟨[.ok [0x91, 0x00]], [], false⟩ }
    Inv fresh ∧ Inv spent ∧ fresh.phase = .idle ∧ spent.phase = .idle ∧
    (Descriptor.bare 0x48#8).presentable fresh.cfg = true ∧ spent.cfg = fresh.cfg ∧ fresh.host = [] ∧
    spent.host = [] ∧ spent.link.answers = fresh.link.answers ∧ spent.freeCount = fresh.freeCount := by
  refine ⟨?_, test_spent_inv, rfl, rfl, by decide, rfl, rfl, rfl, rfl, rfl⟩
  exact ⟨rfl, by decide, .inl ⟨rfl, rfl, rfl⟩, fun h => (nomatch h), fun _ _ => rfl, rfl, fun _ => ⟨rfl, rfl, rfl⟩,
    by decide, by decide, fun h => absurd rfl h, fun h => (nomatch h)⟩

end Sys2Proof.Tests
end

section
/-!
PROOFS. A failed exchange, whatever made it fail, ends any framer operation; a response longer than `FRAME_MAX` is one
such failure.
-/

namespace Sys2Proof.Machine

/-! ### The framer working state and the exchange -/

/-- An exchange neither reads nor writes `ACC`, `ITER` and `TXF`: the frame it sends is its argument (00_scope R16;
10_state R30). -/
theorem exchange_set_framerWork (f a g : Bytes) (n : Nat) (s : State) :
    exchange f { s with acc := a, iter := n, txf := g } =
      ((exchange f s).1, { (exchange f s).2 with acc := a, iter := n, txf := g }) := by
  cases ha : s.link.answers with
  | nil => simp [exchange, ha]
  | cons answer rest =>
    cases answer with
    | silent => simp [exchange, ha]
    | fail reason => simp [exchange, ha]
    | ok r => by_cases hr : r.length ≤ s.cfg.frameMax <;> simp [exchange, ha, hr]

/-- Error entry discards the framer working state, whatever it held (60_exceptions R226; 10_state R30). -/
theorem raise_set_framerWork (e : OpError) (a g : Bytes) (n : Nat) (s : State) :
    raise e { s with acc := a, iter := n, txf := g } = raise e s := rfl

/-! ### A failed exchange -/

/-- The single step on a failed exchange (43_framer R181). -/
theorem singleStep_fail {expect reason : BitVec 16} {s t : State} (h : exchange s.txf s = (.fail reason, t)) :
    singleStep expect s = raise ⟨.exchangeFailed, 0, reason.toNat⟩ t := by
  simp only [singleStep, h]

/-- A pass of the chain loop below the bound on a failed exchange (43_framer R191). -/
theorem chainStep_fail {reason : BitVec 16} {s t : State} (hb : s.iter ≠ s.cfg.chainMax)
    (h : exchange s.txf s = (.fail reason, t)) :
    chainStep s = raise ⟨.exchangeFailed, 0, reason.toNat⟩ t := by
  simp only [chainStep, if_neg hb, h]

/-- An operation that sends a frame is a single-exchange operation, which runs its step with the frame in `TXF`, or a
chain operation (43_framer R181 to R185). -/
theorem sends_cases {i : Instr} {f : Bytes} {s : State} (h : sends i s f) :
    (∃ expect, exec i s = .next (singleStep expect { s with txf := f })) ∨ i.isChain = true := by
  cases i with
  | sendCmd msg cmd expect => exact .inl ⟨expect, execSendCmd_sends h⟩
  | sendCmdR msg o n cmd expect => exact .inl ⟨expect, execSendCmdR_sends h⟩
  | sendChain _ _ | sendChainR _ _ _ _ | sendApduChain _ => exact .inr rfl
  | aesEnc _ _ _ | aesDec _ _ _ | aesDecR _ _ _ _ _ | tdesEnc _ _ _ | tdesDec _ _ _ | tdesDecR _ _ _ _ _
  | tdesDecZ _ _ | tdesDecZR _ _ _ _ => exact h.elim

/-- A failed exchange ends any framer operation with `EXCHANGE_FAILED`, the reason passed through and no data: what
was accumulated is discarded (43_framer R191). -/
theorem exec_sends_fail {i : Instr} {f : Bytes} {reason : BitVec 16} {s t : State} (h : sends i s f)
    (hx : exchange f s = (.fail reason, t)) :
    exec i s = .next (raise ⟨.exchangeFailed, 0, reason.toNat⟩ t) := by
  have hxWork (a g : Bytes) (n : Nat) : exchange f { s with acc := a, iter := n, txf := g } =
      (.fail reason, { t with acc := a, iter := n, txf := g }) := by
    rw [exchange_set_framerWork, hx]
  obtain ⟨expect, hexec⟩ | hchain := sends_cases h
  · rw [hexec, singleStep_fail (hxWork s.acc f s.iter), raise_set_framerWork]
  · obtain ⟨hbound, htxf, hexec⟩ := exec_chain_sends hchain h
    rw [hexec]
    by_cases hfirst : s.iter = 0
    · have hboundInit : (chainInit f s).iter ≠ (chainInit f s).cfg.chainMax := by
        simpa [hfirst] using hbound
      rw [if_pos hfirst, chainStep_fail hboundInit (hxWork [] f 0), raise_set_framerWork]
    · obtain rfl := htxf hfirst
      rw [if_neg hfirst, chainStep_fail hbound hx]

/-- Settles O46: an overlong response is a failed exchange with a free reason (00_scope R9; log 5), and a failed
exchange ends any framer operation. -/
theorem overlongResponseIsAFailure : Obligations.OverlongResponseIsAFailure := by
  unfold Obligations.OverlongResponseIsAFailure
  intro i f r rest s hsends hanswers hlong
  rw [exec_sends_fail hsends (exchange_overlong hanswers hlong), raise_eq_complete]
  rfl

end Sys2Proof.Machine
end

section
/-!
PROOFS. Everything the engine's own step can do, said once: a result that is written is legal and within its widths,
an operation that performs an exchange waits, ends or goes on, and a step of a busy engine completes at once or
performs an exchange.
-/

namespace Sys2Proof.Machine

/-! ### Results (10_state R28; 60_exceptions R221, R223) -/

/-- The result that error entry with `e` writes (60_exceptions R226). -/
def OpError.result (e : OpError) : Result :=
  { code := e.cause.code, expected := e.expected, actual := e.actual, data := [] }

/-- The result that success with `data` writes (10_state R28). -/
def successResult (data : Bytes) : Result := { code := 0x00#8, expected := 0, actual := 0, data := data }

theorem raise_eq_complete_result (e : OpError) (s : State) : raise e s = complete e.result s := rfl

theorem finish_eq_complete_successResult (data : Bytes) (s : State) :
    finish data s = complete (successResult data) s := finish_eq_complete data s

theorem OpError.result_legal (e : OpError) : e.result.legal := .inr ⟨e.cause, rfl, rfl⟩

theorem successResult_legal (data : Bytes) : (successResult data).legal := .inl ⟨rfl, rfl, rfl⟩

theorem resultCleared_legal : Result.cleared.legal := successResult_legal []

/-- Only success carries data (60_exceptions R227). -/
theorem Result.legal.data_eq_nil {r : Result} (h : r.legal) (hcode : r.code ≠ 0x00#8) : r.data = [] := by
  obtain ⟨hok, -, -⟩ | ⟨-, -, hdata⟩ := h
  · exact absurd hok hcode
  · exact hdata

theorem params_fits_iff {p : Params} {v : Nat} : p.fits v = true ↔ v < 2 ^ p.lenW := by simp [Params.fits]

/-- A value of sixteen bits or of the width of a length, and one of sixteen bits or of the width of a sum of two
lengths, fit the context fields (10_state R28). -/
theorem Result.fits_of_bound {p : Params} {r : Result} (he : r.expected < 2 ^ 16 ∨ r.expected < 2 ^ p.lenW)
    (ha : r.actual < 2 ^ 16 ∨ r.actual < 2 * 2 ^ p.lenW) : r.fits p := by
  have hsum : 2 ^ (p.lenW + 1) = 2 * 2 ^ p.lenW := by rw [Nat.pow_succ, Nat.mul_comm]
  have h1 : 2 ^ 16 ≤ 2 ^ max 16 p.lenW := Nat.pow_le_pow_right (by decide) (le_max_left ..)
  have h2 : 2 ^ p.lenW ≤ 2 ^ max 16 p.lenW := Nat.pow_le_pow_right (by decide) (le_max_right ..)
  have h3 : 2 ^ 16 ≤ 2 ^ max 16 (p.lenW + 1) := Nat.pow_le_pow_right (by decide) (le_max_left ..)
  have h4 : 2 ^ (p.lenW + 1) ≤ 2 ^ max 16 (p.lenW + 1) := Nat.pow_le_pow_right (by decide) (le_max_right ..)
  unfold Result.fits
  omega

theorem successResult_fits (p : Params) (data : Bytes) : (successResult data).fits p :=
  Result.fits_of_bound (.inl (by simp [successResult])) (.inl (by simp [successResult]))

/-! ### Operands of a descriptor that can be presented (10_state R23, R24) -/

theorem decodeAes_wf {p : Params} {d : Descriptor} {i : Instr} (h : decodeAes d = .ok i)
    (hd : d.presentable p = true) : i.wf p = true := by
  unfold decodeAes at h
  repeat' split at h
  all_goals cases h <;> simp_all [Instr.wf, Descriptor.presentable]

theorem decodeTdes_wf {p : Params} {d : Descriptor} {i : Instr} (h : decodeTdes d = .ok i)
    (hd : d.presentable p = true) : i.wf p = true := by
  unfold decodeTdes at h
  repeat' split at h
  all_goals cases h <;> simp_all [Instr.wf, Descriptor.presentable]

theorem decodeFramer_wf {p : Params} {d : Descriptor} {i : Instr} (h : decodeFramer d = .ok i)
    (hd : d.presentable p = true) : i.wf p = true := by
  unfold decodeFramer at h
  repeat' split at h
  all_goals cases h <;> simp_all [Instr.wf, Descriptor.presentable]

/-- The operands of a descriptor that can be presented can be presented (10_state R23, R24; 30_encoding R66). -/
theorem decode_wf {p : Params} {d : Descriptor} {i : Instr} (h : decode d = .ok i)
    (hd : d.presentable p = true) : i.wf p = true := by
  unfold decode at h
  split at h
  · exact decodeAes_wf h hd
  · exact decodeTdes_wf h hd
  · exact decodeFramer_wf h hd
  · cases h

/-- Sizes of the operands of one cipher operation, of a record with sizes of one byte. -/
structure CipherOperandsFit (p : Params) (C : Cipher) (iv key msg : Bytes) (rg : Range) : Prop where
  block : C.block < 2 ^ 8
  keyLen : C.keyLen < 2 ^ 8
  iv : iv.length = C.block ∨ iv.length < 2 ^ p.lenW
  key : key.length < 2 ^ p.lenW
  msg : msg.length < 2 ^ p.lenW
  off : rg.off < 2 ^ p.lenW
  len : rg.len < 2 ^ p.lenW

/-- The context values of a cipher operation's error fit their fields (60_exceptions R223; 10_state R28). -/
theorem cipherError_fits {p : Params} {C : Cipher} {iv key msg : Bytes} {rg : Range} {e : OpError}
    (hfit : CipherOperandsFit p C iv key msg rg) (h : cipherError C iv key msg rg = some e) : e.result.fits p := by
  obtain ⟨hblock, hkeyLen, hiv, hkey, hmsg, hoff, hlen⟩ := hfit
  unfold cipherError at h
  repeat' split at h
  all_goals cases h <;> apply Result.fits_of_bound <;> simp only [OpError.result] <;> omega

/-- A cipher operation completes in one step with a result that its operands fix (40_cipher_common R91, R102). -/
theorem cipherOp_completes (C : Cipher) (dir : Dir) (iv key msg : Bytes) (rg : Range) :
    ∃ r : Result, r.legal ∧ (∀ p, CipherOperandsFit p C iv key msg rg → r.fits p) ∧
      ∀ s, cipherOp C dir iv key msg rg s = .next (complete r s) := by
  cases h : cipherError C iv key msg rg with
  | some e =>
    exact ⟨e.result, e.result_legal, fun p hfit => cipherError_fits hfit h,
      fun s => by simp only [cipherOp_eq, h, raise_eq_complete_result]⟩
  | none =>
    exact ⟨successResult (cbcRun C dir iv key (slice msg rg.off rg.len)).1, successResult_legal _,
      fun p _ => successResult_fits p _, fun s => by simp only [cipherOp_eq, h, finish_eq_complete_successResult]⟩

/-- The operands of an AES operation that can be presented (10_state R23, R24). -/
theorem aesOperandsFit {p : Params} {iv key msg : Bytes} {rg : Range}
    (h : p.fits iv.length ∧ p.fits key.length ∧ p.fits msg.length ∧ p.fits rg.off ∧ p.fits rg.len) :
    CipherOperandsFit p aesCipher iv key msg rg := by
  obtain ⟨hiv, hkey, hmsg, hoff, hlen⟩ := h
  simp only [params_fits_iff] at hiv hkey hmsg hoff hlen
  exact ⟨by decide, by decide, .inr hiv, hkey, hmsg, hoff, hlen⟩

/-- The operands of a TDES operation that can be presented; the IV of a Z form is one block (10_state R23, R24;
40_cipher_common R93). -/
theorem tdesOperandsFit {p : Params} {iv key msg : Bytes} {rg : Range}
    (hiv : iv.length = tdesCipher.block ∨ p.fits iv.length)
    (h : p.fits key.length ∧ p.fits msg.length ∧ p.fits rg.off ∧ p.fits rg.len) :
    CipherOperandsFit p tdesCipher iv key msg rg := by
  obtain ⟨hkey, hmsg, hoff, hlen⟩ := h
  simp only [params_fits_iff] at hiv hkey hmsg hoff hlen
  exact ⟨by decide, by decide, hiv, hkey, hmsg, hoff, hlen⟩

@[simp] theorem params_fits_zero (p : Params) : p.fits 0 = true := by simp [Params.fits]

/-- Each of the eight cipher operations is one call of the shared step, with operands that can be presented when the
operation's can (41_aes R110 to R112; 42_tdes R140 to R144). -/
theorem exec_cipher {i : Instr} (hi : i.isCipher = true) : ∃ C dir iv key msg rg,
    (∀ p, i.wf p = true → CipherOperandsFit p C iv key msg rg) ∧
    ∀ s, exec i s = cipherOp C dir iv key msg rg s := by
  cases i with
  | aesEnc iv key msg =>
    exact ⟨aesCipher, .encrypt, iv, key, msg, wholeOf msg,
      fun p h => aesOperandsFit (by simp_all [Instr.wf]), fun _ => rfl⟩
  | aesDec iv key msg =>
    exact ⟨aesCipher, .decrypt, iv, key, msg, wholeOf msg,
      fun p h => aesOperandsFit (by simp_all [Instr.wf]), fun _ => rfl⟩
  | aesDecR iv key msg offset length =>
    exact ⟨aesCipher, .decrypt, iv, key, msg, ⟨offset, length⟩,
      fun p h => aesOperandsFit (by simp_all [Instr.wf]), fun _ => rfl⟩
  | tdesEnc iv key msg =>
    exact ⟨tdesCipher, .encrypt, iv, key, msg, wholeOf msg,
      fun p h => tdesOperandsFit (by simp_all [Instr.wf]) (by simp_all [Instr.wf]), fun _ => rfl⟩
  | tdesDec iv key msg =>
    exact ⟨tdesCipher, .decrypt, iv, key, msg, wholeOf msg,
      fun p h => tdesOperandsFit (by simp_all [Instr.wf]) (by simp_all [Instr.wf]), fun _ => rfl⟩
  | tdesDecR iv key msg offset length =>
    exact ⟨tdesCipher, .decrypt, iv, key, msg, ⟨offset, length⟩,
      fun p h => tdesOperandsFit (by simp_all [Instr.wf]) (by simp_all [Instr.wf]), fun _ => rfl⟩
  | tdesDecZ key msg =>
    exact ⟨tdesCipher, .decrypt, zeros tdesCipher.block, key, msg, wholeOf msg,
      fun p h => tdesOperandsFit (.inl (zeros_length _)) (by simp_all [Instr.wf]), fun _ => rfl⟩
  | tdesDecZR key msg offset length =>
    exact ⟨tdesCipher, .decrypt, zeros tdesCipher.block, key, msg, ⟨offset, length⟩,
      fun p h => tdesOperandsFit (.inl (zeros_length _)) (by simp_all [Instr.wf]), fun _ => rfl⟩
  | sendCmd _ _ _ | sendCmdR _ _ _ _ _ | sendChain _ _ | sendChainR _ _ _ _ | sendApduChain _ =>
    simp [Instr.isCipher] at hi

/-- Everything a cipher operation can do: it completes in one step, in every state with the same legal
result (40_cipher_common R91, R102). -/
theorem exec_cipher_completes {i : Instr} (hi : i.isCipher = true) :
    ∃ r : Result, r.legal ∧ (∀ p, i.wf p = true → r.fits p) ∧ ∀ s, exec i s = .next (complete r s) := by
  obtain ⟨C, dir, iv, key, msg, rg, hfit, hexec⟩ := exec_cipher hi
  obtain ⟨r, hlegal, hfits, hop⟩ := cipherOp_completes C dir iv key msg rg
  exact ⟨r, hlegal, fun p hp => hfits p (hfit p hp), fun s => (hexec s).trans (hop s)⟩

end Sys2Proof.Machine
end

section
/-!
PROOFS. The framer's step, once: an operation that performs an exchange waits, ends or goes on with the chain; one
that performs none ends at once.
-/

namespace Sys2Proof.Machine

/-! ### The exchange, in terms of the state it leaves -/

/-- An exchange changes the link and the free-value counter only; only while it waits is it outstanding, and a
response it gives is no longer than `FRAME_MAX` (00_scope R9, R16; 60_exceptions R234). -/
theorem exchange_frame {f : Bytes} {s t : State} {rep : Reply} (h : exchange f s = (rep, t)) :
    ∃ l n, t = { s with link := l, freeCount := n } ∧ (rep ≠ .waiting → l.outstanding = false) ∧
      ∀ r, rep = .ok r → r.length ≤ s.cfg.frameMax := by
  obtain ⟨rfl, ⟨-, rfl⟩ | ⟨rest, -, rfl⟩⟩ | ⟨r, rest, rfl, -, hr, rfl⟩ | ⟨reason, rest, rfl, -, rfl⟩ |
    ⟨r, rest, rfl, -, -, rfl⟩ := exchange_cases h
  · exact ⟨_, s.freeCount, rfl, fun hw => absurd rfl hw, fun _ hr => by cases hr⟩
  · exact ⟨_, s.freeCount, rfl, fun hw => absurd rfl hw, fun _ hr => by cases hr⟩
  · exact ⟨_, s.freeCount, rfl, fun _ => rfl, fun _ he => by cases he; exact hr⟩
  · exact ⟨_, s.freeCount, rfl, fun _ => rfl, fun _ hr => by cases hr⟩
  · exact ⟨_, s.freeCount + 1, rfl, fun _ => rfl, fun _ hr => by cases hr⟩

/-- The data of a response is two bytes shorter than the response (43_framer R187). -/
theorem split_data_length {r data : Bytes} {sw : BitVec 16} (h : split r = some (data, sw)) :
    data.length + 2 = r.length := by
  obtain ⟨hlen, rfl⟩ := split_some h
  rw [List.length_take]
  omega

/-! ### A step that performs an exchange -/

/-- Everything a step of state `s` that performs an exchange of `f` can leave, for a chain operation or not, where
`acc` is what was accumulated before: it waits, it ends the operation, or it goes on with the chain (43_framer R181,
R188; 60_exceptions R234). -/
inductive ExchangeStep (chain : Bool) (f acc : Bytes) (s : State) : State → Prop where
  /-- The collaborator has not answered. -/
  | waits {t : State} (hx : exchange f s = (.waiting, t)) :
      ExchangeStep chain f acc s { t with acc := acc, iter := s.iter, txf := f }
  /-- It has answered, and the operation completes. -/
  | ends {rep : Reply} {t : State} {r : Result} (hx : exchange f s = (rep, t)) (hrep : rep ≠ .waiting)
      (hlegal : r.legal) (hfits : r.fits s.cfg) : ExchangeStep chain f acc s (complete r t)
  /-- It has answered 0x91AF in a chain. -/
  | goesOn {r data : Bytes} {t : State} (hx : exchange f s = (.ok r, t)) (hchain : chain = true)
      (hdata : data.length + 2 = r.length) :
      ExchangeStep chain f acc s { t with acc := acc ++ data, iter := s.iter + 1, txf := contFrame t.cfg }

/-- An answered exchange that raises an error whose context values are status words, lengths below two or the
collaborator's reason. -/
theorem ExchangeStep.raises {chain : Bool} {f acc : Bytes} {s t : State} {rep : Reply} {e : OpError}
    (hx : exchange f s = (rep, t)) (hrep : rep ≠ .waiting) (he : e.expected < 2 ^ 16) (ha : e.actual < 2 ^ 16)
    (a g : Bytes) (n : Nat) : ExchangeStep chain f acc s (raise e { t with acc := a, iter := n, txf := g }) :=
  .ends (t := t) hx hrep e.result_legal (Result.fits_of_bound (.inl he) (.inl ha))

/-- An answered exchange that completes with success. -/
theorem ExchangeStep.finishes {chain : Bool} {f acc data : Bytes} {s t : State} {rep : Reply}
    (hx : exchange f s = (rep, t)) (hrep : rep ≠ .waiting) (a g : Bytes) (n : Nat) :
    ExchangeStep chain f acc s (finish data { t with acc := a, iter := n, txf := g }) := by
  rw [finish_eq_complete_successResult]
  exact .ends (t := t) hx hrep (successResult_legal data) (successResult_fits s.cfg data)

/-- The step of a single-exchange operation with its frame in `TXF` (43_framer R181). -/
theorem singleStep_exchangeStep (expect : BitVec 16) (f : Bytes) (s : State) :
    ExchangeStep false f s.acc s (singleStep expect { s with txf := f }) := by
  rcases hx : exchange f s with ⟨rep, t⟩
  have hxu : exchange f { s with txf := f } = (rep, { t with acc := s.acc, iter := s.iter, txf := f }) := by
    simpa only [hx] using exchange_set_framerWork f s.acc f s.iter s
  cases rep with
  | waiting =>
    simp only [singleStep, hxu]
    exact .waits hx
  | fail reason =>
    rw [singleStep_fail hxu]
    exact .raises hx (by simp) (by simp) reason.isLt ..
  | ok r =>
    simp only [singleStep, hxu]
    obtain ⟨hlen, h⟩ | ⟨data, sw, -, ⟨-, h⟩ | ⟨-, h⟩⟩ :=
      singleReply_cases expect r { t with acc := s.acc, iter := s.iter, txf := f } <;> rw [h]
    · exact .raises hx (by simp) (by simp) (show r.length < 2 ^ 16 by omega) ..
    · exact .finishes hx (by simp) ..
    · exact .raises hx (by simp) expect.isLt sw.isLt ..

/-- A pass of the chain loop below the bound, with the frame `f` in `TXF` and `acc` in `ACC` (43_framer R188). -/
theorem chainStep_exchangeStep (f acc : Bytes) {s : State} (hbound : s.iter ≠ s.cfg.chainMax) :
    ExchangeStep true f acc s (chainStep { s with acc := acc, txf := f }) := by
  rcases hx : exchange f s with ⟨rep, t⟩
  have hxu : exchange f { s with acc := acc, txf := f } = (rep, { t with acc := acc, iter := s.iter, txf := f }) := by
    simpa only [hx] using exchange_set_framerWork f acc f s.iter s
  cases rep with
  | waiting =>
    simp only [chainStep, if_neg hbound, hxu]
    exact .waits hx
  | fail reason =>
    rw [chainStep_fail (s := { s with acc := acc, txf := f }) hbound hxu]
    exact .raises hx (by simp) (by simp) reason.isLt ..
  | ok r =>
    simp only [chainStep, if_neg hbound, hxu]
    obtain ⟨hlen, h⟩ | ⟨data, sw, hsplit, ⟨-, h⟩ | ⟨-, h⟩ | ⟨-, -, h⟩⟩ :=
      chainReply_cases r { t with acc := acc, iter := s.iter + 1, txf := f } <;> rw [h]
    · exact .raises hx (by simp) (by simp) (show r.length < 2 ^ 16 by omega) ..
    · exact .goesOn (t := t) hx rfl (split_data_length hsplit)
    · exact .finishes hx (by simp) ..
    · exact .raises hx (by simp) (by simp) sw.isLt ..

/-- What an operation has accumulated before the exchange of this step: nothing at the first exchange of a chain
(43_framer R188). -/
def accBefore (i : Instr) (s : State) : Bytes := if i.isChain = true ∧ s.iter = 0 then [] else s.acc

/-- A chain operation that sends `f` runs a pass of the loop with `f` in `TXF` (43_framer R183 to R185, R188). -/
theorem exec_chain_sends_eq {i : Instr} {f : Bytes} {s : State} (hi : i.isChain = true) (h : sends i s f) :
    exec i s = .next (chainStep { s with acc := accBefore i s, txf := f }) := by
  obtain ⟨-, htxf, hexec⟩ := exec_chain_sends hi h
  rw [hexec]
  by_cases hfirst : s.iter = 0
  · simp [accBefore, hi, hfirst, chainInit]
  · simp [accBefore, hfirst, htxf hfirst]

/-- An operation that sends `f` performs the exchange of `f` in this step (43_framer R181 to R185). -/
theorem exec_exchangeStep {i : Instr} {f : Bytes} {s : State} (h : sends i s f) :
    ∃ t, exec i s = .next t ∧ ExchangeStep i.isChain f (accBefore i s) s t := by
  cases hi : i.isChain with
  | true => exact ⟨_, exec_chain_sends_eq hi h, chainStep_exchangeStep f _ (exec_chain_sends hi h).1⟩
  | false =>
    obtain ⟨expect, hexec⟩ := (sends_cases h).resolve_right (by simp [hi])
    have hacc : accBefore i s = s.acc := by simp [accBefore, hi]
    exact ⟨_, hexec, hacc ▸ singleStep_exchangeStep expect f s⟩

/-! ### When a framer operation performs an exchange -/

/-- Before the first exchange has returned, an operand error ends a framer operation (60_exceptions R225). -/
theorem exec_operandError {i : Instr} {s : State} {e : OpError} (he : operandError i s = some e)
    (hfirst : i.isChain = true → s.iter = 0) : exec i s = .next (raise e s) := by
  cases i with
  | sendCmd msg cmd expect =>
    have he : framerError s msg (wholeOf msg) = some e := he
    simp only [exec, execSendCmd, sendSingle_eq, he]
  | sendCmdR msg o n cmd expect =>
    have he : framerError s msg ⟨o, n⟩ = some e := he
    simp only [exec, execSendCmdR, sendSingle_eq, he]
  | sendChain msg cmd =>
    have he : framerError s msg (wholeOf msg) = some e := he
    simp only [exec, execSendChain, sendChained_eq, if_pos (hfirst rfl), he]
  | sendChainR msg o n cmd =>
    have he : framerError s msg ⟨o, n⟩ = some e := he
    simp only [exec, execSendChainR, sendChained_eq, if_pos (hfirst rfl), he]
  | sendApduChain msg =>
    have he : unitError s = some e := he
    simp only [exec, execSendApduChain_eq, if_pos (hfirst rfl), he]
  | aesEnc _ _ _ | aesDec _ _ _ | aesDecR _ _ _ _ _ | tdesEnc _ _ _ | tdesDec _ _ _ | tdesDecR _ _ _ _ _
  | tdesDecZ _ _ | tdesDecZR _ _ _ _ => cases he

/-- Before its first exchange has returned, a framer operation below its bound sends its first frame exactly when no
operand error stops it (43_framer R181 to R185). -/
theorem exists_sends_iff {i : Instr} {s : State} (hi : i.isCipher = false)
    (hfirst : i.isChain = true → s.iter = 0 ∧ s.cfg.chainMax ≠ 0) :
    (∃ f, sends i s f) ↔ operandError i s = none := by
  cases i with
  | sendCmd msg cmd expect => simp [sends, operandError, framerError_eq_none, Config.lcMax]
  | sendCmdR msg o n cmd expect => simp [sends, operandError, framerError_eq_none, Config.lcMax]
  | sendChain msg cmd =>
    obtain ⟨hz, hb⟩ := hfirst rfl
    simp [sends, operandError, framerError_eq_none, Config.lcMax, hz, hb.symm]
  | sendChainR msg o n cmd =>
    obtain ⟨hz, hb⟩ := hfirst rfl
    simp [sends, operandError, framerError_eq_none, Config.lcMax, hz, hb.symm]
  | sendApduChain msg =>
    obtain ⟨hz, hb⟩ := hfirst rfl
    simp [sends, operandError, unitError_eq_none, hz, hb.symm]
  | aesEnc _ _ _ | aesDec _ _ _ | aesDecR _ _ _ _ _ | tdesEnc _ _ _ | tdesDec _ _ _ | tdesDecR _ _ _ _ _
  | tdesDecZ _ _ | tdesDecZR _ _ _ _ => simp [Instr.isCipher] at hi

/-- A chain under way and below its bound sends the frame in `TXF` (43_framer R188). -/
theorem sends_txf {i : Instr} {s : State} (hi : i.isChain = true) (hlater : s.iter ≠ 0)
    (hbound : s.iter ≠ s.cfg.chainMax) : sends i s s.txf := by
  cases i with
  | sendChain _ _ | sendChainR _ _ _ _ | sendApduChain _ => exact ⟨hbound, by simp [hlater]⟩
  | aesEnc _ _ _ | aesDec _ _ _ | aesDecR _ _ _ _ _ | tdesEnc _ _ _ | tdesDec _ _ _ | tdesDecR _ _ _ _ _
  | tdesDecZ _ _ | tdesDecZR _ _ _ _ | sendCmd _ _ _ | sendCmdR _ _ _ _ _ => simp [Instr.isChain] at hi

/-- The pass that finds `ITER = CHAIN_MAX` ends the operation, whatever is in the framer working state (43_framer
R189). -/
theorem chainStep_bound (acc txf : Bytes) {s : State} (hbound : s.iter = s.cfg.chainMax) :
    chainStep { s with acc := acc, txf := txf } =
      raise ⟨.chainTooLong, s.cfg.chainMax, s.cfg.chainMax⟩ s := by
  simp only [chainStep, hbound, ite_true]
  rfl

/-- A chain operation at its bound ends with `CHAIN_TOO_LONG`, its checks passed if they are still to be done
(43_framer R189). -/
theorem exec_chain_bound {i : Instr} {s : State} (hi : i.isChain = true) (hbound : s.iter = s.cfg.chainMax)
    (hchecks : s.iter = 0 → operandError i s = none) :
    exec i s = .next (raise ⟨.chainTooLong, s.cfg.chainMax, s.cfg.chainMax⟩ s) := by
  have hlater : chainStep s = raise ⟨.chainTooLong, s.cfg.chainMax, s.cfg.chainMax⟩ s :=
    chainStep_bound s.acc s.txf hbound
  have hinit (f : Bytes) (hz : s.iter = 0) :
      chainStep (chainInit f s) = raise ⟨.chainTooLong, s.cfg.chainMax, s.cfg.chainMax⟩ s := by
    rw [← chainStep_bound [] f hbound]
    simp only [chainInit, hz]
  cases i with
  | sendChain msg cmd =>
    by_cases hz : s.iter = 0
    · have he : framerError s msg (wholeOf msg) = none := hchecks hz
      simp only [exec, execSendChain, sendChained_eq, if_pos hz, he, hinit _ hz]
    · simp only [exec, execSendChain, sendChained_eq, if_neg hz, hlater]
  | sendChainR msg o n cmd =>
    by_cases hz : s.iter = 0
    · have he : framerError s msg ⟨o, n⟩ = none := hchecks hz
      simp only [exec, execSendChainR, sendChained_eq, if_pos hz, he, hinit _ hz]
    · simp only [exec, execSendChainR, sendChained_eq, if_neg hz, hlater]
  | sendApduChain msg =>
    by_cases hz : s.iter = 0
    · have he : unitError s = none := hchecks hz
      simp only [exec, execSendApduChain_eq, if_pos hz, he, hinit _ hz]
    · simp only [exec, execSendApduChain_eq, if_neg hz, hlater]
  | aesEnc _ _ _ | aesDec _ _ _ | aesDecR _ _ _ _ _ | tdesEnc _ _ _ | tdesDec _ _ _ | tdesDecR _ _ _ _ _
  | tdesDecZ _ _ | tdesDecZR _ _ _ _ | sendCmd _ _ _ | sendCmdR _ _ _ _ _ => simp [Instr.isChain] at hi

/-- Everything a framer operation can do: an operand error ends it before its first exchange has returned, a chain
ends at its bound, or it sends a frame (60_exceptions R225; 43_framer R188, R189). -/
theorem exec_framer_cases {i : Instr} (hi : i.isCipher = false) (s : State) :
    (∃ e, operandError i s = some e ∧ exec i s = .next (raise e s)) ∨
    (i.isChain = true ∧ s.iter = s.cfg.chainMax ∧
      exec i s = .next (raise ⟨.chainTooLong, s.cfg.chainMax, s.cfg.chainMax⟩ s)) ∨
    ∃ f, sends i s f := by
  by_cases hlater : i.isChain = true ∧ s.iter ≠ 0
  · obtain ⟨hchain, hz⟩ := hlater
    by_cases hbound : s.iter = s.cfg.chainMax
    · exact .inr (.inl ⟨hchain, hbound, exec_chain_bound hchain hbound fun h => absurd h hz⟩)
    · exact .inr (.inr ⟨_, sends_txf hchain hz hbound⟩)
  · have hfirst : i.isChain = true → s.iter = 0 := fun hchain => by simpa [hchain] using hlater
    cases he : operandError i s with
    | some e => exact .inl ⟨e, rfl, exec_operandError he hfirst⟩
    | none =>
      by_cases hbound : i.isChain = true ∧ s.iter = s.cfg.chainMax
      · exact .inr (.inl ⟨hbound.1, hbound.2, exec_chain_bound hbound.1 hbound.2 fun _ => he⟩)
      · refine .inr (.inr ((exists_sends_iff hi fun hchain => ⟨hfirst hchain, fun hmax => ?_⟩).mpr he))
        exact hbound ⟨hchain, (hfirst hchain).trans hmax.symm⟩

/-! ### The context values of a framer operation's operand error -/

theorem framerError_fits {s : State} {msg : Bytes} {rg : Range} {e : OpError} (hmsg : s.cfg.fits msg.length = true)
    (hoff : s.cfg.fits rg.off = true) (hlen : s.cfg.fits rg.len = true) (h : framerError s msg rg = some e) :
    e.result.fits s.cfg := by
  rw [params_fits_iff] at hmsg hoff hlen
  have hop := s.d.op.isLt
  unfold framerError at h
  repeat' split at h
  all_goals cases h <;> apply Result.fits_of_bound <;> simp only [OpError.result, Config.lcMax] <;> omega

theorem unitError_fits {s : State} {e : OpError} (h : unitError s = some e) : e.result.fits s.cfg := by
  have hop := s.d.op.isLt
  unfold unitError at h
  split at h <;> cases h
  exact Result.fits_of_bound (.inl (by simp [OpError.result])) (.inl (by simp only [OpError.result]; omega))

/-- The context values of a framer operation's operand error fit their fields (60_exceptions R223; 10_state R28). -/
theorem operandError_fits {i : Instr} {s : State} {e : OpError} (hwf : i.wf s.cfg = true)
    (h : operandError i s = some e) : e.result.fits s.cfg := by
  cases i with
  | sendCmd msg cmd expect => exact framerError_fits (rg := wholeOf msg) hwf (params_fits_zero _) hwf h
  | sendChain msg cmd => exact framerError_fits (rg := wholeOf msg) hwf (params_fits_zero _) hwf h
  | sendCmdR msg o n cmd expect =>
    simp only [Instr.wf, Bool.and_eq_true] at hwf
    obtain ⟨⟨hmsg, hoff⟩, hlen⟩ := hwf
    exact framerError_fits hmsg hoff hlen h
  | sendChainR msg o n cmd =>
    simp only [Instr.wf, Bool.and_eq_true] at hwf
    obtain ⟨⟨hmsg, hoff⟩, hlen⟩ := hwf
    exact framerError_fits hmsg hoff hlen h
  | sendApduChain msg => exact unitError_fits h
  | aesEnc _ _ _ | aesDec _ _ _ | aesDecR _ _ _ _ _ | tdesEnc _ _ _ | tdesDec _ _ _ | tdesDecR _ _ _ _ _
  | tdesDecZ _ _ | tdesDecZR _ _ _ _ => cases h

end Sys2Proof.Machine
end

section
/-!
PROOFS. The step of the machine, once: the host's action, nothing, or a step of the busy engine, which completes at
once or performs an exchange. What the descriptor latch, the phase and the parameters are after it.
-/

namespace Sys2Proof.Machine

/-! ### A step of a busy engine (70_reset_and_hazards R262) -/

/-- An exchange can be outstanding in this state of a busy engine: its framer operation has passed its checks, and has
not reached its bound (60_exceptions R234). -/
def exchangeDue (s : State) : Prop := framerReady false s ∨ (framerReady true s ∧ s.iter < s.cfg.chainMax)

theorem framerReady_iff {c : Bool} {i : Instr} {s : State} (hd : decode s.d = .ok i) :
    framerReady c s ↔ i.isCipher = false ∧ i.isChain = c ∧ operandError i s = none := by
  simp [framerReady, hd]

/-- A code that is reserved, or the code of a cipher operation, never has an exchange outstanding. -/
theorem not_exchangeDue_of_no_framer {s : State} (h : ∀ i, decode s.d = .ok i → i.isCipher = true) :
    ¬ exchangeDue s := by
  rintro (⟨i, hd, hi, -⟩ | ⟨⟨i, hd, hi, -⟩, -⟩) <;> simp [h i hd] at hi

/-- Everything a step of a busy engine can do: complete at once, in a state with no exchange outstanding, or perform
the exchange of its framer operation (40_cipher_common R91; 60_exceptions R225; 43_framer R188, R189). -/
inductive BusyStep (s : State) : State → Prop where
  /-- It completes without an exchange. -/
  | completes {r : Result} (hdue : ¬ exchangeDue s) (hlegal : r.legal)
      (hfits : s.d.presentable s.cfg = true → s.cfg.chainMax < 2 ^ max 16 s.cfg.lenW → r.fits s.cfg) :
      BusyStep s (complete r s)
  /-- It performs an exchange. -/
  | exchanges {i : Instr} {f : Bytes} {t : State} (hd : decode s.d = .ok i) (hsends : sends i s f)
      (hstep : ExchangeStep i.isChain f (accBefore i s) s t) : BusyStep s t

theorem busyStep_illegalOp {s : State} {e : Reserved} (hd : decode s.d = .error e) :
    BusyStep s (raiseIllegalOp s) := by
  have hop : s.d.op.toNat < 2 ^ 8 := s.d.op.isLt
  refine .completes (not_exchangeDue_of_no_framer (by simp [hd])) (OpError.result_legal _) fun _ _ => ?_
  exact Result.fits_of_bound (.inl (Nat.two_pow_pos 16)) (.inl (show s.d.op.toNat < 2 ^ 16 by omega))

theorem chainTooLong_fits {p : Params} (h : p.chainMax < 2 ^ max 16 p.lenW) :
    (OpError.result ⟨.chainTooLong, p.chainMax, p.chainMax⟩).fits p :=
  ⟨h, h.trans_le (Nat.pow_le_pow_right (by decide) (by omega))⟩

/-- The operation a busy engine runs (70_reset_and_hazards R262). -/
theorem exec_busyStep {s : State} {i : Instr} (hd : decode s.d = .ok i) :
    ∃ t, exec i s = .next t ∧ BusyStep s t := by
  cases hi : i.isCipher with
  | true =>
    obtain ⟨r, hlegal, hfits, hexec⟩ := exec_cipher_completes hi
    have hdue : ¬ exchangeDue s := not_exchangeDue_of_no_framer (by simp [hd, hi])
    exact ⟨_, hexec s, .completes hdue hlegal fun hpres _ => hfits _ (decode_wf hd hpres)⟩
  | false =>
    obtain ⟨e, he, hexec⟩ | ⟨hchain, hbound, hexec⟩ | ⟨f, hsends⟩ := exec_framer_cases hi s
    · have hdue : ¬ exchangeDue s := by simp [exchangeDue, framerReady_iff hd, he]
      exact ⟨_, hexec, .completes hdue e.result_legal fun hpres _ => operandError_fits (decode_wf hd hpres) he⟩
    · have hdue : ¬ exchangeDue s := by simp [exchangeDue, framerReady_iff hd, hchain, hbound]
      exact ⟨_, hexec, .completes hdue (OpError.result_legal _) fun _ hmax => chainTooLong_fits hmax⟩
    · obtain ⟨t, hexec, hstep⟩ := exec_exchangeStep hsends
      exact ⟨t, hexec, .exchanges hd hsends hstep⟩

/-- Everything the engine's own step can do: nothing when idle, a step of the busy engine otherwise, and always a next
state (70_reset_and_hazards R262). -/
theorem engineStep_next (s : State) : ∃ t, engineStep s = .next t ∧
    ((s.phase = .idle ∧ t = s) ∨ (s.phase = .busy ∧ BusyStep s t)) := by
  obtain ⟨hp, h⟩ | ⟨i, hp, hd, h⟩ | ⟨e, hp, hd, h⟩ := engineStep_cases s
  · exact ⟨s, h, .inl ⟨hp, rfl⟩⟩
  · obtain ⟨t, hexec, hstep⟩ := exec_busyStep hd
    exact ⟨t, h.trans hexec, .inr ⟨hp, hstep⟩⟩
  · exact ⟨_, h, .inr ⟨hp, busyStep_illegalOp hd⟩⟩

/-- Everything a step of the machine can do, the host's turn taken off its list first: an action of the host, nothing,
or a step of the busy engine (00_scope R11; log 6). -/
theorem step_next_cases {s t : State} (h : step s = .next t) : ∃ rest,
    (∃ d, s.host = .start d :: rest ∧ t = start d { s with host := rest }) ∨
    (s.host = .reset :: rest ∧ t = resetEngine { s with host := rest }) ∨
    (s.phase = .idle ∧ t = { s with host := rest }) ∨
    (s.phase = .busy ∧ BusyStep { s with host := rest } t) := by
  have own (rest : List HostAction) (hs : step s = engineStep { s with host := rest }) :
      (s.phase = .idle ∧ t = { s with host := rest }) ∨ (s.phase = .busy ∧ BusyStep { s with host := rest } t) := by
    obtain ⟨u, hu, hcases⟩ := engineStep_next { s with host := rest }
    rw [hs, hu] at h
    cases h
    exact hcases
  obtain ⟨d, rest, hh, hs⟩ | ⟨rest, hh, hs⟩ | ⟨rest, -, hs⟩ | ⟨hh, hs⟩ := step_cases s
  · exact ⟨rest, .inl ⟨d, hh, by simpa [hs, eq_comm] using h⟩⟩
  · exact ⟨rest, .inr (.inl ⟨hh, by simpa [hs, eq_comm] using h⟩)⟩
  · exact ⟨rest, .inr (.inr (own rest hs))⟩
  · exact ⟨[], .inr (.inr (own [] (by rw [hs, ← hh])))⟩

/-! ### What a step of a busy engine leaves unchanged -/

/-- A step of a busy engine leaves the parameters, the descriptor latch and the host alone; the operation goes on with
the result latch as it was, or it completes (10_state R26; 70_reset_and_hazards R254). -/
theorem BusyStep.frame {s t : State} (h : BusyStep s t) :
    t.cfg = s.cfg ∧ t.d = s.d ∧ t.host = s.host ∧
    ((t.phase = s.phase ∧ t.res = s.res) ∨ ∃ r u, t = complete r u) := by
  cases h with
  | completes hdue hlegal hfits => exact ⟨rfl, rfl, rfl, .inr ⟨_, s, rfl⟩⟩
  | exchanges hd hsends hstep =>
    cases hstep with
    | waits hx =>
      obtain ⟨l, n, rfl, -, -⟩ := exchange_frame hx
      exact ⟨rfl, rfl, rfl, .inl ⟨rfl, rfl⟩⟩
    | ends hx hrep hlegal hfits =>
      obtain ⟨l, n, rfl, -, -⟩ := exchange_frame hx
      exact ⟨rfl, rfl, rfl, .inr ⟨_, _, rfl⟩⟩
    | goesOn hx hchain hdata =>
      obtain ⟨l, n, rfl, -, -⟩ := exchange_frame hx
      exact ⟨rfl, rfl, rfl, .inl ⟨rfl, rfl⟩⟩

/-- The engine's own step leaves the host's list alone (00_scope R11). -/
theorem engineStep_host {s t : State} (h : engineStep s = .next t) : t.host = s.host := by
  obtain ⟨u, hu, ⟨-, rfl⟩ | ⟨-, hrun⟩⟩ := engineStep_next s <;> rw [h] at hu <;> cases hu
  · rfl
  · obtain ⟨-, -, hhost, -⟩ := hrun.frame
    exact hhost

/-- Without an action of the host a step is the engine's own (00_scope R11; log 6). -/
theorem step_eq_engineStep {s : State} (hhost : s.host = []) : step s = engineStep s := by
  simp only [step, turn, hhost]

/-- A run of an engine without an action of the host begins with the engine's own step. -/
theorem run_succ_of_engineStep {s t : State} {n : Nat} (hhost : s.host = []) (h : engineStep s = .next t) :
    Host.Core.run Sys2Proof.core (n + 1) s = Host.Core.run Sys2Proof.core n t := by
  have hstep : Sys2Proof.core.step s = .next t := (step_eq_engineStep hhost).trans h
  simp only [Host.Core.run, hstep]

/-- Settles O57: the engine's own step leaves the latch alone, START copies the descriptor into it, reset clears it. -/
theorem latchWrittenOnlyByHost : Obligations.LatchWrittenOnlyByHost := by
  unfold Obligations.LatchWrittenOnlyByHost
  intro s t hstep
  obtain ⟨rest, ⟨d, hhost, rfl⟩ | ⟨hhost, rfl⟩ | ⟨-, rfl⟩ | ⟨-, hbusy⟩⟩ := step_next_cases hstep
  · obtain ⟨hidle, -, heq⟩ | ⟨-, heq⟩ := start_cases d { s with host := rest } <;> rw [heq]
    · exact ⟨latch_cfg .., .inr (.inl ⟨d, rest, hhost, hidle, latch_d ..⟩)⟩
    · exact ⟨rfl, .inl rfl⟩
  · exact ⟨rfl, .inr (.inr ⟨rest, hhost, rfl, rfl, rfl⟩)⟩
  · exact ⟨rfl, .inl rfl⟩
  · obtain ⟨hcfg, hd, -, -⟩ := hbusy.frame
    exact ⟨hcfg, .inl hd⟩

/-- Settles O58: a step of the busy engine keeps the phase or completes, and START enters BUSY with `DONE` false. -/
theorem phaseChanges : Obligations.PhaseChanges := by
  unfold Obligations.PhaseChanges
  intro s t hstep
  obtain ⟨rest, ⟨d, hhost, rfl⟩ | ⟨hhost, rfl⟩ | ⟨hidle, rfl⟩ | ⟨hbusy, hrun⟩⟩ := step_next_cases hstep
  · obtain ⟨hidle, -, heq⟩ | ⟨-, heq⟩ := start_cases d { s with host := rest } <;> rw [heq]
    · exact ⟨fun _ h => by simp at h, fun _ _ => ⟨latch_done .., rest, by rw [latch_d]; exact hhost⟩⟩
    · exact ⟨fun hb hi => by simp [hb] at hi, fun hi hb => by simp [hi] at hb⟩
  · exact ⟨fun _ _ => .inr ⟨rest, hhost⟩, fun _ h => by simp at h⟩
  · exact ⟨fun h _ => by simp [hidle] at h, fun _ h => by simp [hidle] at h⟩
  · refine ⟨fun _ hidle => ?_, fun h _ => by simp [hbusy] at h⟩
    obtain ⟨-, -, -, ⟨hphase, -⟩ | ⟨r, u, rfl⟩⟩ := hrun.frame
    · simp [hphase, hbusy] at hidle
    · exact .inl ⟨rfl, rfl, rfl, rfl⟩

/-- Settles O56: each result that is written fits, the bound's because `CHAIN_MAX` does, and a result that stays is
the one that fitted. -/
theorem stepKeepsResultWidths : Obligations.StepKeepsResultWidths := by
  unfold Obligations.StepKeepsResultWidths
  intro s t hinv hmax hfits hstep
  obtain ⟨rest, ⟨d, -, rfl⟩ | ⟨-, rfl⟩ | ⟨-, rfl⟩ | ⟨-, hrun⟩⟩ := step_next_cases hstep
  · obtain ⟨-, -, heq⟩ | ⟨-, heq⟩ := start_cases d { s with host := rest } <;> rw [heq]
    · rwa [latch_cfg, latch_res]
    · exact hfits
  · exact successResult_fits s.cfg []
  · exact hfits
  · cases hrun with
    | completes hdue hlegal hr => exact hr hinv.latchFits hmax
    | exchanges hd hsends hx =>
      cases hx with
      | waits hx =>
        obtain ⟨l, n, rfl, -, -⟩ := exchange_frame hx
        exact hfits
      | ends hx hrep hlegal hr =>
        obtain ⟨l, n, rfl, -, -⟩ := exchange_frame hx
        exact hr
      | goesOn hx hchain hdata =>
        obtain ⟨l, n, rfl, -, -⟩ := exchange_frame hx
        exact hfits

end Sys2Proof.Machine
end

section
/-!
PROOFS. The invariant: it holds of every idle engine with nothing in progress, START enters an operation from it, and
each kind of step of a busy engine keeps it.
-/

namespace Sys2Proof.Machine

/-! ### The invariant of an idle and of a busy engine -/

/-- The operand checks read the parameters and the descriptor latch only (43_framer R180). -/
theorem operandError_congr {s t : State} (hcfg : t.cfg = s.cfg) (hd : t.d = s.d) (i : Instr) :
    operandError i t = operandError i s := by
  cases i <;> simp only [operandError, framerError, unitError, hcfg, hd]

theorem framerReady.congr {c : Bool} {s t : State} (h : framerReady c s) (hcfg : t.cfg = s.cfg) (hd : t.d = s.d) :
    framerReady c t := by
  obtain ⟨i, hdec, hcipher, hchain, hop⟩ := h
  exact ⟨i, hd ▸ hdec, hcipher, hchain, (operandError_congr hcfg hd i).trans hop⟩

/-- An idle engine with the working state discarded and no exchange outstanding meets the invariant (10_state R29 to
R31). -/
theorem Inv.of_idle {s : State} (hcfg : s.cfg.wf = true) (hd : s.d.presentable s.cfg = true) (hres : s.res.legal)
    (hphase : s.phase = .idle) (hnone : s.done = false → s.res = Result.cleared)
    (hwork : s.work = CipherWork.cleared) (hdisc : s.acc = [] ∧ s.iter = 0 ∧ s.txf = [])
    (hout : s.link.outstanding = false) : Inv s where
  paramsOk := hcfg
  latchFits := hd
  resLegal := hres
  doneIdle _ := hphase
  noResultYet _ := hnone
  workCleared := hwork
  idleDiscarded _ := hdisc
  iterBound := by simp [hdisc]
  accBound := by simp [hdisc]
  continuing h := absurd hdisc.2.1 h
  outstandingBusy h := by simp [hout] at h

/-- A completed operation leaves the invariant, whatever it leaves in the result (70_reset_and_hazards R254). -/
theorem Inv.complete {s : State} {r : Result} (hcfg : s.cfg.wf = true) (hd : s.d.presentable s.cfg = true)
    (hout : s.link.outstanding = false) (hr : r.legal) : Inv (complete r s) :=
  .of_idle hcfg hd hr rfl (fun h => by simp at h) rfl ⟨rfl, rfl, rfl⟩ hout

theorem presentable_bare_zero (p : Params) : (Descriptor.bare 0x00#8).presentable p = true := by
  simp [Descriptor.presentable, Descriptor.bare]

/-- A reset engine meets the invariant, whatever it was doing (10_state R36; 70_reset_and_hazards R251). -/
theorem inv_resetEngine {s : State} (hcfg : s.cfg.wf = true) : Inv (resetEngine s) :=
  .of_idle hcfg (presentable_bare_zero _) resultCleared_legal rfl (fun _ => rfl) rfl ⟨rfl, rfl, rfl⟩ rfl

/-- Settles O54: the reset state is idle, with everything cleared. -/
theorem resetSatisfiesInv : Obligations.ResetSatisfiesInv := by
  unfold Obligations.ResetSatisfiesInv
  exact .of_idle rfl (presentable_bare_zero _) resultCleared_legal rfl (fun _ => rfl) rfl ⟨rfl, rfl, rfl⟩ rfl

/-- What the host will do is no part of the invariant (log 6). -/
theorem Inv.set_host {s : State} (h : Inv s) (rest : List HostAction) : Inv { s with host := rest } where
  paramsOk := h.paramsOk
  latchFits := h.latchFits
  resLegal := h.resLegal
  doneIdle := h.doneIdle
  noResultYet := h.noResultYet
  workCleared := h.workCleared
  idleDiscarded := h.idleDiscarded
  iterBound := h.iterBound
  accBound := h.accBound
  continuing hn := by
    obtain ⟨hbusy, hready, htxf⟩ := h.continuing hn
    exact ⟨hbusy, hready.congr rfl rfl, htxf⟩
  outstandingBusy ho := by
    obtain ⟨hbusy, hdue⟩ := h.outstandingBusy ho
    exact ⟨hbusy, hdue.imp (·.congr rfl rfl) (.imp (·.congr rfl rfl) id)⟩

/-- No exchange is outstanding in an idle engine (60_exceptions R234). -/
theorem Inv.idle_not_outstanding {s : State} (h : Inv s) (hidle : s.phase = .idle) :
    s.link.outstanding = false := by
  cases ho : s.link.outstanding with
  | false => rfl
  | true => exact absurd (hidle.symm.trans (h.outstandingBusy ho).1) (by decide)

/-- No exchange is outstanding where none is due (60_exceptions R234). -/
theorem Inv.not_outstanding {s : State} (h : Inv s) (hdue : ¬ exchangeDue s) : s.link.outstanding = false := by
  cases ho : s.link.outstanding with
  | false => rfl
  | true => exact absurd (h.outstandingBusy ho).2 hdue

/-- START keeps the invariant: of an idle engine it begins an operation with the working state cleared, and otherwise
it does nothing (70_reset_and_hazards R253, R255). -/
theorem Inv.start {s : State} (h : Inv s) (d : Descriptor) : Inv (start d s) := by
  obtain ⟨hidle, hpres, heq⟩ | ⟨-, heq⟩ := start_cases d s <;> rw [heq]
  · obtain ⟨hacc, hiter, htxf⟩ := h.idleDiscarded hidle
    have hlatched : (latch d s).iter = 0 := by simp [hiter]
    exact {
      paramsOk := by simpa using h.paramsOk
      latchFits := by simpa using hpres
      resLegal := by simpa using h.resLegal
      doneIdle := by simp
      noResultYet := by simp
      workCleared := by simpa using h.workCleared
      idleDiscarded := by simp
      iterBound := by simp [hiter]
      accBound := by simp [hacc]
      continuing := fun hn => absurd hlatched hn
      outstandingBusy := by simp [h.idle_not_outstanding hidle] }
  · exact h

/-- A framer operation that goes on keeps the invariant, when the new framer working state has its bounds and an
exchange is outstanding only where one is due (10_state R30; 60_exceptions R234). -/
theorem Inv.framer_goes_on {s : State} (h : Inv s) (hbusy : s.phase = .busy) {acc txf : Bytes} {iter n : Nat} {l : Link}
    (hiter : iter ≤ s.cfg.chainMax) (hacc : acc.length ≤ iter * (s.cfg.frameMax - 2))
    (hcont : iter ≠ 0 → framerReady true s ∧ txf = contFrame s.cfg)
    (hout : l.outstanding = true → framerReady false s ∨ (framerReady true s ∧ iter < s.cfg.chainMax)) :
    Inv { s with acc := acc, iter := iter, txf := txf, link := l, freeCount := n } where
  paramsOk := h.paramsOk
  latchFits := h.latchFits
  resLegal := h.resLegal
  doneIdle := h.doneIdle
  noResultYet := h.noResultYet
  workCleared := h.workCleared
  idleDiscarded hidle := by simp [hbusy] at hidle
  iterBound := hiter
  accBound := hacc
  continuing hn := by
    obtain ⟨hready, htxf⟩ := hcont hn
    exact ⟨hbusy, hready.congr rfl rfl, htxf⟩
  outstandingBusy ho := ⟨hbusy, (hout ho).imp (·.congr rfl rfl) (.imp (·.congr rfl rfl) id)⟩

/-! ### The framer's step -/

/-- Only a framer operation sends a frame (43_framer R181 to R185). -/
theorem not_isCipher_of_sends {i : Instr} {s : State} {f : Bytes} (h : sends i s f) : i.isCipher = false := by
  cases i with
  | sendCmd _ _ _ | sendCmdR _ _ _ _ _ | sendChain _ _ | sendChainR _ _ _ _ | sendApduChain _ => rfl
  | aesEnc _ _ _ | aesDec _ _ _ | aesDecR _ _ _ _ _ | tdesEnc _ _ _ | tdesDec _ _ _ | tdesDecR _ _ _ _ _
  | tdesDecZ _ _ | tdesDecZR _ _ _ _ => exact h.elim

/-- An operation that sends a frame in a state of the invariant has passed its checks, and a chain is below its bound
(43_framer R183 to R189). -/
theorem Inv.sends_ready {s : State} (h : Inv s) {i : Instr} {f : Bytes} (hd : decode s.d = .ok i)
    (hs : sends i s f) :
    framerReady i.isChain s ∧ (i.isChain = true → s.iter < s.cfg.chainMax) ∧
      (s.iter ≠ 0 → i.isChain = true ∧ f = contFrame s.cfg) := by
  have hmax : s.cfg.chainMax ≠ 0 := by
    have := h.paramsOk
    simp only [Params.wf, decide_eq_true_eq] at this
    omega
  have hcipher : i.isCipher = false := not_isCipher_of_sends hs
  have hbound (hchain : i.isChain = true) : s.iter < s.cfg.chainMax :=
    lt_of_le_of_ne h.iterBound (exec_chain_sends hchain hs).1
  by_cases hz : s.iter = 0
  · refine ⟨(framerReady_iff hd).mpr ⟨hcipher, rfl, ?_⟩, hbound, fun hn => absurd hz hn⟩
    exact (exists_sends_iff hcipher fun _ => ⟨hz, hmax⟩).mp ⟨f, hs⟩
  · obtain ⟨-, hready, htxf⟩ := h.continuing hz
    obtain ⟨-, hchain, -⟩ := (framerReady_iff hd).mp hready
    exact ⟨hchain ▸ hready, hbound, fun _ => ⟨hchain, ((exec_chain_sends hchain hs).2.1 hz).trans htxf⟩⟩

/-- What was accumulated before a step is within its bound (10_state R30). -/
theorem Inv.accBefore_bound {s : State} (h : Inv s) (i : Instr) :
    (accBefore i s).length ≤ s.iter * (s.cfg.frameMax - 2) := by
  unfold accBefore
  split
  · exact Nat.zero_le _
  · exact h.accBound

/-- A step that performs an exchange keeps the invariant. -/
theorem Inv.exchangeStep {s t : State} (h : Inv s) (hbusy : s.phase = .busy) {i : Instr} {f : Bytes}
    (hd : decode s.d = .ok i) (hs : sends i s f) (hstep : ExchangeStep i.isChain f (accBefore i s) s t) : Inv t := by
  obtain ⟨hready, hbound, hlater⟩ := h.sends_ready hd hs
  have hacc := h.accBefore_bound i
  cases hstep with
  | waits hx =>
    obtain ⟨l, n, rfl, -, -⟩ := exchange_frame hx
    refine h.framer_goes_on hbusy h.iterBound hacc (fun hn => ?_) fun _ => ?_
    · obtain ⟨hchain, hf⟩ := hlater hn
      exact ⟨hchain ▸ hready, hf⟩
    · cases hchain : i.isChain with
      | false => exact .inl (hchain ▸ hready)
      | true => exact .inr ⟨hchain ▸ hready, hbound hchain⟩
  | ends hx hrep hlegal hfits =>
    obtain ⟨l, n, rfl, hout, -⟩ := exchange_frame hx
    exact .complete h.paramsOk h.latchFits (hout hrep) hlegal
  | goesOn hx hchain hdata =>
    obtain ⟨l, n, rfl, hout, hlen⟩ := exchange_frame hx
    have hlen := hlen _ rfl
    refine h.framer_goes_on hbusy (hbound hchain) ?_ (fun _ => ⟨hchain ▸ hready, rfl⟩) fun ho => ?_
    · rw [List.length_append, Nat.succ_mul]
      omega
    · simp [hout (by simp)] at ho

/-- A step of a busy engine keeps the invariant. -/
theorem Inv.busyStep {s t : State} (h : Inv s) (hbusy : s.phase = .busy) (hstep : BusyStep s t) : Inv t := by
  cases hstep with
  | completes hdue hlegal hfits => exact .complete h.paramsOk h.latchFits (h.not_outstanding hdue) hlegal
  | exchanges hd hsends hstep => exact h.exchangeStep hbusy hd hsends hstep

/-- Settles O55: by the cases of one step, each of which keeps the invariant. -/
theorem stepKeepsInv : Obligations.StepKeepsInv := by
  unfold Obligations.StepKeepsInv
  intro s t hinv hstep
  obtain ⟨rest, ⟨d, -, rfl⟩ | ⟨-, rfl⟩ | ⟨-, rfl⟩ | ⟨hbusy, hrun⟩⟩ := step_next_cases hstep
  · exact (hinv.set_host rest).start d
  · exact inv_resetEngine hinv.paramsOk
  · exact hinv.set_host rest
  · exact (hinv.set_host rest).busyStep hbusy hrun

end Sys2Proof.Machine
end

section
/-!
PROOFS. What a cipher operation leaves unchanged, what a step of a busy engine runs, what the host can read, and the
reset values.
-/

namespace Sys2Proof.Machine

/-- Settles O18: a cipher operation is a completion, whose result carries data on success only. -/
theorem cipherOperationsFrame : Obligations.CipherOperationsFrame := by
  unfold Obligations.CipherOperationsFrame
  intro i s t hi hexec
  obtain ⟨r, hlegal, -, hcompletes⟩ := exec_cipher_completes hi
  rw [hcompletes s] at hexec
  cases hexec
  exact ⟨rfl, fun _ => rfl, hlegal.data_eq_nil⟩

/-- The engine's own step runs the operation its descriptor decodes to (70_reset_and_hazards R262). -/
theorem engineStep_eq_exec {s : State} {i : Instr} (hbusy : s.phase = .busy) (hd : decode s.d = .ok i) :
    engineStep s = exec i s := by
  simp only [engineStep, hbusy, hd]

/-- Settles O5: without an action of the host, or with its turn to wait used up, the engine takes its own step. -/
theorem stepRunsDecodedOperation : Obligations.StepRunsDecodedOperation := by
  unfold Obligations.StepRunsDecodedOperation
  intro s i hbusy hd
  refine ⟨fun hhost => (step_eq_engineStep hhost).trans (engineStep_eq_exec hbusy hd), fun rest hhost => ?_⟩
  rw [← engineStep_eq_exec (s := { s with host := rest }) hbusy hd]
  simp only [step, turn, hhost]

/-- Settles O9: the values of R36 are those of the reset state. -/
theorem resetValues : Obligations.ResetValues := by
  unfold Obligations.ResetValues
  exact ⟨rfl, rfl, rfl, rfl, rfl, rfl, rfl, rfl, rfl, rfl, rfl, rfl, rfl, rfl⟩

theorem hostView_busy {s : State} (h : s.phase = .busy) : hostView s = ⟨.busy, s.done, none⟩ := by
  simp [hostView, h]

theorem hostView_idle {s : State} (h : s.phase = .idle) : hostView s = ⟨.idle, s.done, some s.res⟩ := by
  simp [hostView, h]

/-- Settles O13: the view is made of `PHASE`, `DONE` and, when idle, `RES`, and reads no other field. -/
theorem hostSeesOnlyTheResult : Obligations.HostSeesOnlyTheResult := by
  unfold Obligations.HostSeesOnlyTheResult
  exact fun s => ⟨hostView_busy, hostView_idle, fun _ _ _ _ _ => rfl⟩

end Sys2Proof.Machine
end

section
/-!
PROOFS. Nothing carries over: the frames an engine sent before, and the result it holds while it is busy, have no part
in what it does. Every step commutes with putting another such past behind a state.
-/

namespace Sys2Proof.Machine

/-! ### Another past behind a state (10_state R32) -/

/-- The state `s` with the frames `sent` handed over before its own, and, while an operation is in progress, with the
result `r` of an earlier operation still in the latch. -/
def withPast (sent : List Bytes) (r : Result) (s : State) : State :=
  { s with
    res := if s.phase = .busy then r else s.res
    link := { s.link with sent := sent ++ s.link.sent } }

variable (sent : List Bytes) (r : Result)

@[simp] theorem withPast_phase (s : State) : (withPast sent r s).phase = s.phase := rfl

/-- An idle engine shows its own result, not that of its past. -/
theorem withPast_res_of_idle {s : State} (h : s.phase = .idle) : (withPast sent r s).res = s.res := by
  simp [withPast, h]

/-- The frames of the past come before those of the state. -/
theorem withPast_sent (s : State) : (withPast sent r s).link.sent = sent ++ s.link.sent := rfl

/-- The completed operation overwrites the result of the past (70_reset_and_hazards R254). -/
theorem complete_withPast (q : Result) (s : State) :
    complete q (withPast sent r s) = withPast sent r (complete q s) := by
  simp [withPast, complete]

theorem raise_withPast (e : OpError) (s : State) : raise e (withPast sent r s) = withPast sent r (raise e s) :=
  complete_withPast ..

theorem finish_withPast (data : Bytes) (s : State) :
    finish data (withPast sent r s) = withPast sent r (finish data s) :=
  complete_withPast ..

/-- An exchange appends to the frames sent and reads none of them (00_scope R16). -/
theorem exchange_withPast (f : Bytes) (s : State) :
    exchange f (withPast sent r s) = ((exchange f s).1, withPast sent r (exchange f s).2) := by
  have hover : (withPast sent r s).link.handOver f =
      { s.link.handOver f with sent := sent ++ (s.link.handOver f).sent } := by
    cases ho : s.link.outstanding <;> simp [Link.handOver, withPast, ho]
  unfold exchange
  rw [hover]
  cases ha : s.link.answers with
  | nil => simp [ha, withPast]
  | cons answer rest =>
    cases answer with
    | silent => simp [ha, withPast]
    | fail reason => simp [ha, withPast]
    | ok q => by_cases hq : q.length ≤ s.cfg.frameMax <;> simp [ha, hq, withPast]

/-! ### Each shared step commutes with another past -/

theorem singleReply_withPast (expect : BitVec 16) (q : Bytes) (s : State) :
    singleReply expect q (withPast sent r s) = withPast sent r (singleReply expect q s) := by
  unfold singleReply
  cases split q with
  | none => exact raise_withPast ..
  | some p =>
    by_cases he : p.2 = expect
    · simp only [he, ite_true, finish_withPast]
    · simp only [he, ite_false, raise_withPast]

theorem singleStep_withPast (expect : BitVec 16) (s : State) :
    singleStep expect (withPast sent r s) = withPast sent r (singleStep expect s) := by
  have hx : exchange (withPast sent r s).txf (withPast sent r s) = _ := exchange_withPast sent r s.txf s
  rcases h : exchange s.txf s with ⟨rep, t⟩
  rw [h] at hx
  cases rep with
  | waiting => simp only [singleStep, hx, h]
  | fail reason => simp only [singleStep, hx, h, raise_withPast]
  | ok q => simp only [singleStep, hx, h, singleReply_withPast]

theorem chainReply_withPast (q : Bytes) (s : State) :
    chainReply q (withPast sent r s) = withPast sent r (chainReply q s) := by
  unfold chainReply
  cases split q with
  | none => exact raise_withPast ..
  | some p =>
    cases hs : chainStatus p.2 with
    | moreData => simp only [hs]; rfl
    | complete => simp only [hs]; exact finish_withPast ..
    | other => simp only [hs, raise_withPast]

theorem chainStep_withPast (s : State) :
    chainStep (withPast sent r s) = withPast sent r (chainStep s) := by
  have hx : exchange (withPast sent r s).txf (withPast sent r s) = _ := exchange_withPast sent r s.txf s
  by_cases hbound : s.iter = s.cfg.chainMax
  · have hbound' : (withPast sent r s).iter = (withPast sent r s).cfg.chainMax := hbound
    simp only [chainStep, if_pos hbound, if_pos hbound']
    exact raise_withPast ..
  · have hbound' : (withPast sent r s).iter ≠ (withPast sent r s).cfg.chainMax := hbound
    rcases h : exchange s.txf s with ⟨rep, t⟩
    rw [h] at hx
    cases rep with
    | waiting => simp only [chainStep, if_neg hbound, if_neg hbound', hx, h]
    | fail reason => simp only [chainStep, if_neg hbound, if_neg hbound', hx, h, raise_withPast]
    | ok q =>
      simp only [chainStep, if_neg hbound, if_neg hbound', hx, h]
      exact chainReply_withPast sent r q { t with iter := t.iter + 1 }

/-! ### Each operation commutes with another past -/

/-- An operation answers a next state, and with another past behind the state it answers that state with the same past
behind it. -/
def IgnoresPast (op : State → Host.Outcome State Fault Refusal) (s : State) : Prop :=
  ∃ t, op s = .next t ∧ ∀ sent r, op (withPast sent r s) = .next (withPast sent r t)

theorem sendSingle_ignoresPast (msg : Bytes) (rg : Range) (cmd : Byte) (expect : BitVec 16) (s : State) :
    IgnoresPast (sendSingle msg rg cmd expect) s := by
  refine ⟨_, sendSingle_eq .., fun sent r => ?_⟩
  rw [sendSingle_eq]
  have he : framerError (withPast sent r s) msg rg = framerError s msg rg := rfl
  rw [he]
  cases framerError s msg rg with
  | some e => exact congrArg _ (raise_withPast ..)
  | none =>
    exact congrArg _ (singleStep_withPast sent r expect { s with txf := wrap s.cfg cmd (slice msg rg.off rg.len) })

theorem sendChained_ignoresPast (msg : Bytes) (rg : Range) (cmd : Byte) (s : State) :
    IgnoresPast (sendChained msg rg cmd) s := by
  refine ⟨_, sendChained_eq .., fun sent r => ?_⟩
  rw [sendChained_eq]
  have he : framerError (withPast sent r s) msg rg = framerError s msg rg := rfl
  have hi : (withPast sent r s).iter = s.iter := rfl
  rw [he, hi]
  by_cases hz : s.iter = 0
  · simp only [if_pos hz]
    cases framerError s msg rg with
    | some e => exact congrArg _ (raise_withPast ..)
    | none => exact congrArg _ (chainStep_withPast sent r (chainInit _ s))
  · simp only [if_neg hz, chainStep_withPast]

theorem execSendApduChain_ignoresPast (msg : Bytes) (s : State) : IgnoresPast (execSendApduChain msg) s := by
  refine ⟨_, execSendApduChain_eq .., fun sent r => ?_⟩
  rw [execSendApduChain_eq]
  have he : unitError (withPast sent r s) = unitError s := rfl
  have hi : (withPast sent r s).iter = s.iter := rfl
  rw [he, hi]
  by_cases hz : s.iter = 0
  · simp only [if_pos hz]
    cases unitError s with
    | some e => exact congrArg _ (raise_withPast ..)
    | none => exact congrArg _ (chainStep_withPast sent r (chainInit msg s))
  · simp only [if_neg hz, chainStep_withPast]

theorem exec_ignoresPast (i : Instr) (s : State) : IgnoresPast (exec i) s := by
  cases hi : i.isCipher with
  | true =>
    obtain ⟨q, -, -, hexec⟩ := exec_cipher_completes hi
    exact ⟨_, hexec s, fun sent r => (hexec _).trans (congrArg _ (complete_withPast ..))⟩
  | false =>
    cases i with
    | sendCmd msg cmd expect => exact sendSingle_ignoresPast msg (wholeOf msg) cmd expect s
    | sendCmdR msg o n cmd expect => exact sendSingle_ignoresPast msg ⟨o, n⟩ cmd expect s
    | sendChain msg cmd => exact sendChained_ignoresPast msg (wholeOf msg) cmd s
    | sendChainR msg o n cmd => exact sendChained_ignoresPast msg ⟨o, n⟩ cmd s
    | sendApduChain msg => exact execSendApduChain_ignoresPast msg s
    | aesEnc _ _ _ | aesDec _ _ _ | aesDecR _ _ _ _ _ | tdesEnc _ _ _ | tdesDec _ _ _ | tdesDecR _ _ _ _ _
    | tdesDecZ _ _ | tdesDecZR _ _ _ _ => simp [Instr.isCipher] at hi

theorem engineStep_ignoresPast (s : State) : IgnoresPast engineStep s := by
  cases hp : s.phase with
  | idle => exact ⟨s, by simp only [engineStep, hp], fun sent r => by simp only [engineStep, withPast_phase, hp]⟩
  | busy =>
    cases hd : decode s.d with
    | ok i =>
      obtain ⟨t, hexec, hpast⟩ := exec_ignoresPast i s
      exact ⟨t, (engineStep_eq_exec hp hd).trans hexec, fun sent r =>
        (engineStep_eq_exec (s := withPast sent r s) hp hd).trans (hpast sent r)⟩
    | error e =>
      refine ⟨raiseIllegalOp s, by simp only [engineStep, hp, hd], fun sent r => ?_⟩
      have hd' : decode (withPast sent r s).d = .error e := hd
      simp only [engineStep, withPast_phase, hp, hd']
      exact congrArg _ (raise_withPast ..)

/-- Any number of engine steps (log 6). -/
theorem run_ignoresPast (n : Nat) {s : State} (hhost : s.host = []) :
    IgnoresPast (Host.Core.run Sys2Proof.core n) s := by
  induction n generalizing s with
  | zero => exact ⟨s, rfl, fun _ _ => rfl⟩
  | succ n ih =>
    obtain ⟨u, hs, hpast⟩ := engineStep_ignoresPast s
    obtain ⟨t, hrun, hrunPast⟩ := ih ((engineStep_host hs).trans hhost)
    exact ⟨t, (run_succ_of_engineStep hhost hs).trans hrun, fun sent r =>
      (run_succ_of_engineStep (s := withPast sent r s) hhost (hpast sent r)).trans (hrunPast sent r)⟩

/-! ### START of an idle engine -/

/-- The engine that START of `d` leaves when nothing came before it: no frame sent, no result. -/
def freshStart (d : Descriptor) (cfg : Params) (answers : List Answer) (freeCount : Nat) : State :=
  { cfg := cfg, d := d, res := Result.cleared, phase := .busy, done := false, acc := [], iter := 0, txf := [],
    work := CipherWork.cleared, link := { answers := answers, sent := [], outstanding := false }, host := [],
    freeCount := freeCount }

/-- START of an idle engine of the invariant leaves the fresh engine with the frames and the result of its past
(70_reset_and_hazards R253; 10_state R32). -/
theorem start_eq_withPast_freshStart {d : Descriptor} {s : State} (hinv : Inv s) (hidle : s.phase = .idle)
    (hpres : d.presentable s.cfg = true) (hhost : s.host = []) :
    start d s = withPast s.link.sent s.res (freshStart d s.cfg s.link.answers s.freeCount) := by
  obtain ⟨hacc, hiter, htxf⟩ := hinv.idleDiscarded hidle
  have hout := hinv.idle_not_outstanding hidle
  have hwork := hinv.workCleared
  have hstart : start d s = latch d s := by simp [start, hidle, hpres]
  rw [hstart]
  obtain ⟨cfg, d₀, res, phase, done, acc, iter, txf, work, ⟨answers, sent, outstanding⟩, host, freeCount⟩ := s
  simp only at hacc hiter htxf hout hwork hhost
  subst hacc hiter htxf hout hwork hhost
  simp [latch, withPast, freshStart]

/-- Settles O60: both engines are the same fresh engine with their own pasts, and no step reads a past. -/
theorem nothingCarriesOver : Obligations.NothingCarriesOver := by
  unfold Obligations.NothingCarriesOver
  intro d s s' hinv hinv' hidle hidle' hpres hcfg hhost hhost' hanswers hcount n
  obtain ⟨t, -, hpast⟩ := run_ignoresPast n (s := freshStart d s.cfg s.link.answers s.freeCount) rfl
  have hstart := start_eq_withPast_freshStart hinv hidle hpres hhost
  have hstart' := start_eq_withPast_freshStart hinv' hidle' (hcfg ▸ hpres) hhost'
  rw [hcfg, hanswers, hcount] at hstart'
  refine ⟨withPast s.link.sent s.res t, withPast s'.link.sent s'.res t,
    hstart ▸ hpast _ _, hstart' ▸ hpast _ _, rfl, rfl, rfl, rfl,
    rfl, fun h => ?_, t.link.sent, withPast_sent .., withPast_sent ..⟩
  exact (withPast_res_of_idle (s := t) _ _ h).trans (withPast_res_of_idle (s := t) _ _ h).symm

end Sys2Proof.Machine
end

section
/-!
PROOFS. The byte spaces: what `MemWrite` places and leaves alone, where `MemRead` is defined, that the bytes outside
its range have no part in an operation, and that no step ends in a fault or a refusal.
-/

namespace Sys2Proof.Machine

/-! ### The access primitives (20_memory R41) -/

/-- Inside the space `MemWrite` fills no gap: the bytes are placed between those before and those after them. -/
theorem memWrite_eq_of_le {m : Memory} {a : Nat} (ha : a ≤ m.length) (v : Memory) :
    memWrite m a v = m.take a ++ v ++ m.drop (a + v.length) := by
  simp [memWrite, zeros, Nat.sub_eq_zero_of_le ha]

theorem readByte_memWrite_before {m : Memory} {a b : Nat} (ha : a ≤ m.length) (v : Memory) (hb : b < a) :
    readByte (memWrite m a v) b = readByte m b := by
  have hlt : b < (m.take a).length := by simp only [List.length_take]; omega
  rw [memWrite_eq_of_le ha, List.append_assoc, readByte, List.getElem?_append_left hlt,
    List.getElem?_take_of_lt hb, readByte]

theorem readByte_memWrite_written {m v : Memory} {a i : Nat} (ha : a ≤ m.length) (hi : i < v.length) :
    readByte (memWrite m a v) (a + i) = v[i]? := by
  have hlen : (m.take a).length = a := List.length_take_of_le ha
  rw [memWrite_eq_of_le ha, List.append_assoc, readByte, List.getElem?_append_right (by omega), hlen,
    Nat.add_sub_cancel_left, List.getElem?_append_left hi]

theorem readByte_memWrite_after {m : Memory} {a : Nat} (ha : a ≤ m.length) (v : Memory) (i : Nat) :
    readByte (memWrite m a v) (a + v.length + i) = readByte m (a + v.length + i) := by
  have hlen : (m.take a ++ v).length = a + v.length := by rw [List.length_append, List.length_take_of_le ha]
  rw [memWrite_eq_of_le ha, readByte, List.getElem?_append_right (by omega), hlen, Nat.add_sub_cancel_left,
    List.getElem?_drop, readByte]

/-- Reading back the range just written gives the bytes written. -/
theorem memRead_memWrite {m : Memory} {a : Nat} (ha : a ≤ m.length) (v : Memory) :
    memRead (memWrite m a v) a v.length = some v := by
  have hlen : (m.take a).length = a := List.length_take_of_le ha
  have hfits : a + v.length ≤ (memWrite m a v).length := by
    simp only [memWrite_eq_of_le ha, List.length_append, hlen]; omega
  refine memRead_eq_some.mpr ⟨hfits, ?_⟩
  rw [memWrite_eq_of_le ha, List.append_assoc, slice, List.drop_left' hlen, List.take_left]

/-- `MemRead` is defined exactly within the space. -/
theorem memRead_isSome (m : Memory) (a n : Nat) : (memRead m a n).isSome = decide (a + n ≤ m.length) := by
  unfold memRead
  split <;> simp [*]

/-- Settles O52: an offset lies before, in or after the bytes written. -/
theorem memoryReadAfterWrite : Obligations.MemoryReadAfterWrite := by
  unfold Obligations.MemoryReadAfterWrite
  intro m v a b ha
  refine ⟨?_, memRead_memWrite ha v, memRead_isSome m a⟩
  split
  next hin =>
    obtain ⟨hfrom, hto⟩ := hin
    obtain ⟨i, rfl⟩ := Nat.exists_eq_add_of_le hfrom
    rw [readByte_memWrite_written ha (by omega), Nat.add_sub_cancel_left]
  next hout =>
    obtain hlt | hge : b < a ∨ a + v.length ≤ b := by omega
    · exact readByte_memWrite_before ha v hlt
    · obtain ⟨i, rfl⟩ := Nat.exists_eq_add_of_le hge
      exact readByte_memWrite_after ha v i

/-! ### Bytes outside the range (20_memory R43) -/

/-- A byte of a range is the byte of the buffer at its offset (20_memory R42). -/
theorem getElem?_slice {m : Bytes} {o n i : Nat} (hi : i < n) : (slice m o n)[i]? = readByte m (o + i) := by
  rw [slice, List.getElem?_take_of_lt hi, List.getElem?_drop, readByte]

/-- Two buffers that agree at every offset of a range have the same range. -/
theorem slice_congr {m m' : Bytes} {o n : Nat} (h : ∀ a, o ≤ a → a < o + n → readByte m a = readByte m' a) :
    slice m o n = slice m' o n := by
  refine List.ext_getElem? fun i => ?_
  by_cases hi : i < n
  · rw [getElem?_slice hi, getElem?_slice hi, h (o + i) (by omega) (by omega)]
  · have hnone (b : Bytes) : (slice b o n)[i]? = none :=
      List.getElem?_eq_none (by rw [slice_length]; omega)
    rw [hnone, hnone]

/-- The checks of a cipher operation read the length of the message only (40_cipher_common R92 to R95). -/
theorem cipherError_congr_msg {m m' : Bytes} (hlen : m.length = m'.length) (C : Cipher) (iv key : Bytes) (rg : Range) :
    cipherError C iv key m rg = cipherError C iv key m' rg := by
  simp only [cipherError, hlen]

/-- The checks of a wrapping framer operation read the length of the message only (60_exceptions R225). -/
theorem framerError_congr_msg {m m' : Bytes} (hlen : m.length = m'.length) (s : State) (rg : Range) :
    framerError s m rg = framerError s m' rg := by
  simp only [framerError, hlen]

section
variable {m m' : Bytes} {rg : Range} (hlen : m.length = m'.length)
  (hslice : slice m rg.off rg.len = slice m' rg.off rg.len)
include hlen hslice

theorem cipherOp_congr_msg (C : Cipher) (dir : Dir) (iv key : Bytes) (s : State) :
    cipherOp C dir iv key m rg s = cipherOp C dir iv key m' rg s := by
  rw [cipherOp_eq, cipherOp_eq, cipherError_congr_msg hlen, hslice]

theorem sendSingle_congr_msg (cmd : Byte) (expect : BitVec 16) (s : State) :
    sendSingle m rg cmd expect s = sendSingle m' rg cmd expect s := by
  rw [sendSingle_eq, sendSingle_eq, framerError_congr_msg hlen, hslice]

theorem sendChained_congr_msg (cmd : Byte) (s : State) : sendChained m rg cmd s = sendChained m' rg cmd s := by
  rw [sendChained_eq, sendChained_eq, framerError_congr_msg hlen, hslice]

end

/-- Settles O22: each range form is one of the three shared operations, which read the length of the message and its
range. -/
theorem bytesOutsideRangeAreNotRead : Obligations.BytesOutsideRangeAreNotRead := by
  unfold Obligations.BytesOutsideRangeAreNotRead
  intro iv key m m' o n c e s hlen hagree
  have hslice : slice m o n = slice m' o n := slice_congr hagree
  exact ⟨cipherOp_congr_msg (rg := ⟨o, n⟩) hlen hslice aesCipher .decrypt iv key s,
    cipherOp_congr_msg (rg := ⟨o, n⟩) hlen hslice tdesCipher .decrypt iv key s,
    cipherOp_congr_msg (rg := ⟨o, n⟩) hlen hslice tdesCipher .decrypt (zeros tdesCipher.block) key s,
    sendSingle_congr_msg (rg := ⟨o, n⟩) hlen hslice c e s,
    sendChained_congr_msg (rg := ⟨o, n⟩) hlen hslice c s⟩

/-! ### No fault and no refusal (20_memory R41; 70_reset_and_hazards R261) -/

/-- Settles O53: the host's actions have an effect in every state, and the engine's own step answers a next state. -/
theorem everyStepAnswersNext : Obligations.EveryStepAnswersNext := by
  unfold Obligations.EveryStepAnswersNext
  intro s
  have own (rest : List HostAction) (hs : step s = engineStep { s with host := rest }) : ∃ t, step s = .next t := by
    obtain ⟨t, ht, -⟩ := engineStep_next { s with host := rest }
    exact ⟨t, hs.trans ht⟩
  obtain ⟨d, rest, -, hs⟩ | ⟨rest, -, hs⟩ | ⟨rest, -, hs⟩ | ⟨hhost, hs⟩ := step_cases s
  · exact ⟨_, hs⟩
  · exact ⟨_, hs⟩
  · exact own rest hs
  · exact own [] (by rw [hs, ← hhost])

end Sys2Proof.Machine
end

section
/-!
PROOFS. The encoding: the tabled and the reserved codes, the fields an operation uses, the frame of a wrapped command,
and the operations that are other operations in another form.
-/

namespace Sys2Proof.Machine

/-! ### The decoder (30_encoding R64 to R66) -/

/-- Settles O1: each code's unit and flags pick its row's branch of the decoder, whatever the other fields hold. -/
theorem tabledCodesDecode : Obligations.TabledCodesDecode := by
  unfold Obligations.TabledCodesDecode
  intro iv key msg o n c e
  simp [decode, decodeAes, decodeTdes, decodeFramer, opUnit, opBit3, opDir, opRange, opZero, opKind]

theorem decodeAes_error_congr {d d' : Descriptor} {r : Reserved} (hop : d'.op = d.op) (h : decodeAes d = .error r) :
    decodeAes d' = .error r := by
  unfold decodeAes at h ⊢
  rw [hop]
  repeat' split at h
  all_goals simp_all

theorem decodeTdes_error_congr {d d' : Descriptor} {r : Reserved} (hop : d'.op = d.op) (h : decodeTdes d = .error r) :
    decodeTdes d' = .error r := by
  unfold decodeTdes at h ⊢
  rw [hop]
  repeat' split at h
  all_goals simp_all

theorem decodeFramer_error_congr {d d' : Descriptor} {r : Reserved} (hop : d'.op = d.op)
    (h : decodeFramer d = .error r) : decodeFramer d' = .error r := by
  unfold decodeFramer at h ⊢
  rw [hop]
  repeat' split at h
  all_goals simp_all

/-- Why a code is reserved is read from the code alone (30_encoding R60 to R63, R65). -/
theorem decode_error_congr {d d' : Descriptor} {r : Reserved} (hop : d'.op = d.op) (h : decode d = .error r) :
    decode d' = .error r := by
  unfold decode at h ⊢
  rw [hop]
  split at h
  · exact decodeAes_error_congr hop h
  · exact decodeTdes_error_congr hop h
  · exact decodeFramer_error_congr hop h
  · exact h

/-- The codes that are not tabled are refused, by inspection of the 256 bytes (30_encoding R65). -/
theorem decode_bare_of_reserved :
    ∀ op : Byte, op ∉ legalCodes → (decode (Descriptor.bare op)).isOk = false := by decide +kernel

/-- A reserved code decodes to no operation, for one reason whatever the other fields hold (30_encoding R65). -/
theorem decode_reserved {op : Byte} (h : op ∉ legalCodes) :
    ∃ r, ∀ d : Descriptor, d.op = op → decode d = .error r := by
  cases hbare : decode (Descriptor.bare op) with
  | ok i => simpa [hbare, Except.isOk, Except.toBool] using decode_bare_of_reserved op h
  | error r => exact ⟨r, fun d hop => decode_error_congr hop hbare⟩

/-- Two descriptors with one operation code and the same contents in the fields that R66 marks as used by it. -/
structure SameUsedFields (d d' : Descriptor) : Prop where
  op : d'.op = d.op
  iv : d.op ∈ [0x10#8, 0x11#8, 0x13#8, 0x20#8, 0x21#8, 0x23#8] → d'.iv = d.iv
  key : d.op ∈ [0x10#8, 0x11#8, 0x13#8, 0x20#8, 0x21#8, 0x23#8, 0x25#8, 0x27#8] → d'.key = d.key
  msg : d.op ∈ legalCodes → d'.msg = d.msg
  range : d.op ∈ [0x13#8, 0x23#8, 0x27#8, 0x42#8, 0x46#8] → d'.offset = d.offset ∧ d'.length = d.length
  cmd : d.op ∈ [0x40#8, 0x42#8, 0x44#8, 0x46#8] → d'.cmd = d.cmd
  expect : d.op ∈ [0x40#8, 0x42#8] → d'.expect = d.expect

/-- The decoder reads the code and the fields its operation uses, and no other (30_encoding R66, R67). -/
theorem decode_congr {d d' : Descriptor} (h : SameUsedFields d d') : decode d' = decode d := by
  by_cases hlegal : d.op ∈ legalCodes
  · obtain ⟨op, iv, key, msg, offset, length, cmd, expect⟩ := d
    obtain ⟨op', iv', key', msg', offset', length', cmd', expect'⟩ := d'
    obtain ⟨hop, hiv, hkey, hmsg, hrange, hcmd, hexpect⟩ := h
    simp only at hop hiv hkey hmsg hrange hcmd hexpect hlegal
    obtain rfl := hop
    obtain rfl := hmsg hlegal
    simp only [legalCodes, List.mem_cons, List.not_mem_nil, or_false] at hlegal
    -- With the code fixed, the hypotheses about the fields its row uses are equations, and the others are void.
    have row := tabledCodesDecode
    unfold Obligations.TabledCodesDecode at row
    rcases hlegal with rfl | rfl | rfl | rfl | rfl | rfl | rfl | rfl | rfl | rfl | rfl | rfl | rfl <;> simp_all
  · obtain ⟨r, hr⟩ := decode_reserved hlegal
    rw [hr d rfl, hr d' h.op]

/-! ### A reserved code (30_encoding R65) -/

/-- Settles O3: the decoder refuses the code for some reason, and the engine answers every reason alike. -/
theorem reservedCodeIsIllegalOp : Obligations.ReservedCodeIsIllegalOp := by
  unfold Obligations.ReservedCodeIsIllegalOp
  refine ⟨by decide +kernel, fun s hbusy hhost hreserved => ?_⟩
  obtain ⟨r, hr⟩ := decode_reserved hreserved
  rw [step_eq_engineStep hhost]
  simp only [engineStep, hbusy, hr s.d rfl]
  rfl

/-! ### The step reads the latch through the decoder and the code -/

section
variable (d : Descriptor) (s : State)

/-- An exchange does not read the descriptor latch (00_scope R16). -/
theorem exchange_set_latch (f : Bytes) :
    exchange f { s with d := d } = ((exchange f s).1, { (exchange f s).2 with d := d }) := by
  cases ha : s.link.answers with
  | nil => simp [exchange, ha]
  | cons answer rest =>
    cases answer with
    | silent => simp [exchange, ha]
    | fail reason => simp [exchange, ha]
    | ok r => by_cases hr : r.length ≤ s.cfg.frameMax <;> simp [exchange, ha, hr]

theorem singleReply_set_latch (expect : BitVec 16) (r : Bytes) :
    singleReply expect r { s with d := d } = { singleReply expect r s with d := d } := by
  unfold singleReply
  cases split r with
  | none => rfl
  | some p => by_cases he : p.2 = expect <;> simp only [he, ite_true, ite_false] <;> rfl

theorem singleStep_set_latch (expect : BitVec 16) :
    singleStep expect { s with d := d } = { singleStep expect s with d := d } := by
  have hx := exchange_set_latch d s s.txf
  rcases h : exchange s.txf s with ⟨rep, t⟩
  rw [h] at hx
  cases rep with
  | waiting => simp only [singleStep, hx, h]
  | fail reason => simp only [singleStep, hx, h]; rfl
  | ok r => simp only [singleStep, hx, h, singleReply_set_latch]

theorem chainReply_set_latch (r : Bytes) :
    chainReply r { s with d := d } = { chainReply r s with d := d } := by
  unfold chainReply
  cases split r with
  | none => rfl
  | some p => cases hs : chainStatus p.2 <;> simp only [hs] <;> rfl

theorem chainStep_set_latch : chainStep { s with d := d } = { chainStep s with d := d } := by
  have hx := exchange_set_latch d s s.txf
  rcases h : exchange s.txf s with ⟨rep, t⟩
  rw [h] at hx
  by_cases hbound : s.iter = s.cfg.chainMax
  · simp only [chainStep, if_pos hbound]
    rfl
  · cases rep with
    | waiting => simp only [chainStep, if_neg hbound, hx, h]
    | fail reason => simp only [chainStep, if_neg hbound, hx, h]; rfl
    | ok r =>
      simp only [chainStep, if_neg hbound, hx, h]
      exact chainReply_set_latch d { t with iter := t.iter + 1 } r

end

/-- An operation answers a next state, and with the descriptor `d` in the latch it answers that state, with `d` still
in the latch. -/
def IgnoresLatch (d : Descriptor) (op : State → Host.Outcome State Fault Refusal) (s : State) : Prop :=
  ∃ t, op s = .next t ∧ op { s with d := d } = .next { t with d := d }

section
variable {d : Descriptor} {s : State} (hop : d.op = s.d.op)
include hop

/-- Of the latch the operand checks read the code, which `UNIT_ABSENT` records (43_framer R180). -/
theorem framerError_set_latch (msg : Bytes) (rg : Range) :
    framerError { s with d := d } msg rg = framerError s msg rg := by
  simp only [framerError, hop]

theorem unitError_set_latch : unitError { s with d := d } = unitError s := by
  simp only [unitError, hop]

theorem sendSingle_ignoresLatch (msg : Bytes) (rg : Range) (cmd : Byte) (expect : BitVec 16) :
    IgnoresLatch d (sendSingle msg rg cmd expect) s := by
  refine ⟨_, sendSingle_eq .., ?_⟩
  rw [sendSingle_eq, framerError_set_latch hop]
  cases framerError s msg rg with
  | some e => rfl
  | none => exact congrArg _ (singleStep_set_latch d { s with txf := _ } expect)

theorem sendChained_ignoresLatch (msg : Bytes) (rg : Range) (cmd : Byte) :
    IgnoresLatch d (sendChained msg rg cmd) s := by
  refine ⟨_, sendChained_eq .., ?_⟩
  rw [sendChained_eq, framerError_set_latch hop]
  by_cases hz : s.iter = 0
  · simp only [if_pos hz]
    cases framerError s msg rg with
    | some e => rfl
    | none => exact congrArg _ (chainStep_set_latch d (chainInit _ s))
  · simp only [if_neg hz, chainStep_set_latch]

theorem execSendApduChain_ignoresLatch (msg : Bytes) : IgnoresLatch d (execSendApduChain msg) s := by
  refine ⟨_, execSendApduChain_eq .., ?_⟩
  rw [execSendApduChain_eq, unitError_set_latch hop]
  by_cases hz : s.iter = 0
  · simp only [if_pos hz]
    cases unitError s with
    | some e => rfl
    | none => exact congrArg _ (chainStep_set_latch d (chainInit msg s))
  · simp only [if_neg hz, chainStep_set_latch]

/-- An operation works on its operands and leaves the latch alone; only the code in it can show, in the result of an
absent unit (30_encoding R67; 43_framer R180). -/
theorem exec_ignoresLatch (i : Instr) : IgnoresLatch d (exec i) s := by
  cases hi : i.isCipher with
  | true =>
    obtain ⟨r, -, -, hexec⟩ := exec_cipher_completes hi
    exact ⟨_, hexec s, hexec _⟩
  | false =>
    cases i with
    | sendCmd msg cmd expect => exact sendSingle_ignoresLatch hop msg (wholeOf msg) cmd expect
    | sendCmdR msg o n cmd expect => exact sendSingle_ignoresLatch hop msg ⟨o, n⟩ cmd expect
    | sendChain msg cmd => exact sendChained_ignoresLatch hop msg (wholeOf msg) cmd
    | sendChainR msg o n cmd => exact sendChained_ignoresLatch hop msg ⟨o, n⟩ cmd
    | sendApduChain msg => exact execSendApduChain_ignoresLatch hop msg
    | aesEnc _ _ _ | aesDec _ _ _ | aesDecR _ _ _ _ _ | tdesEnc _ _ _ | tdesDec _ _ _ | tdesDecR _ _ _ _ _
    | tdesDecZ _ _ | tdesDecZR _ _ _ _ => simp [Instr.isCipher] at hi

/-- With another descriptor of the same code in the latch that decodes alike, the engine's own step is the same but
for the latch. -/
theorem engineStep_ignoresLatch (hdec : decode d = decode s.d) : IgnoresLatch d engineStep s := by
  cases hp : s.phase with
  | idle => exact ⟨s, by simp only [engineStep, hp], by simp only [engineStep, hp]⟩
  | busy =>
    cases hd : decode s.d with
    | ok i =>
      obtain ⟨t, hexec, hlatch⟩ := exec_ignoresLatch hop i
      exact ⟨t, (engineStep_eq_exec hp hd).trans hexec,
        (engineStep_eq_exec (s := { s with d := d }) hp (hdec.trans hd)).trans hlatch⟩
    | error r =>
      refine ⟨raiseIllegalOp s, by simp only [engineStep, hp, hd], ?_⟩
      simp only [engineStep, hp, hdec, hd, raiseIllegalOp, hop]
      rfl

end

/-- Descriptors that differ in unused fields only decode alike, and the step of either leaves the same state but for the
latch (30_encoding R66, R67). -/
theorem SameUsedFields.ignored {d d' : Descriptor} {s t : State} (h : SameUsedFields d d') (hhost : s.host = [])
    (hstep : step { s with d := d } = .next t) :
    decode d' = decode d ∧ step { s with d := d' } = .next { t with d := d' } := by
  refine ⟨decode_congr h, ?_⟩
  obtain ⟨u, hu, hlatch⟩ := engineStep_ignoresLatch (s := { s with d := d }) h.op (decode_congr h)
  rw [step_eq_engineStep (s := { s with d := d }) hhost, hu] at hstep
  cases hstep
  rw [step_eq_engineStep (s := { s with d := d' }) hhost]
  exact hlatch

/-- Settles O4: a descriptor changed in one field agrees with it in every other, and in that one where it is used. -/
theorem unusedFieldsAreIgnored : Obligations.UnusedFieldsAreIgnored := by
  unfold Obligations.UnusedFieldsAreIgnored
  intro d b o n c e s t _ hhost hstep
  have same : SameUsedFields d d := ⟨rfl, fun _ => rfl, fun _ => rfl, fun _ => rfl, fun _ => ⟨rfl, rfl⟩,
    fun _ => rfl, fun _ => rfl⟩
  refine ⟨fun hiv => ?_, fun hkey => ?_, fun hmsg => ?_, fun hrange => ?_, fun hcmd => ?_, fun hexpect => ?_⟩
  · exact SameUsedFields.ignored { same with iv := fun h => absurd h hiv } hhost hstep
  · exact SameUsedFields.ignored { same with key := fun h => absurd h hkey } hhost hstep
  · exact SameUsedFields.ignored { same with msg := fun h => absurd h hmsg } hhost hstep
  · exact SameUsedFields.ignored { same with range := fun h => absurd h hrange } hhost hstep
  · exact SameUsedFields.ignored { same with cmd := fun h => absurd h hcmd } hhost hstep
  · exact SameUsedFields.ignored { same with expect := fun h => absurd h hexpect } hhost hstep

/-! ### The wrapped command (30_encoding R68 to R70) -/

/-- A command with parameters carries their count and a trailing zero (30_encoding R68). -/
theorem wrap_of_ne_nil {params : Bytes} (h : params ≠ []) (p : Params) (c : Byte) :
    wrap p c params =
      [0x90#8, c, 0x00#8, 0x00#8, BitVec.ofNat 8 params.length] ++ params ++ [0x00#8] := by
  simp [wrap, h, Config.claWrap]

/-- A command without parameters carries its count only where `EMPTY_LC_OMITTED` is false (30_encoding R69). -/
theorem wrap_nil (p : Params) (c : Byte) :
    wrap p c [] = if p.emptyLcOmitted then [0x90#8, c, 0x00#8, 0x00#8, 0x00#8]
      else [0x90#8, c, 0x00#8, 0x00#8, 0x00#8, 0x00#8] := by
  simp [wrap, Config.claWrap]

/-- Settles O39: a count of at most 255 is the value of its byte. -/
theorem wrapLayout : Obligations.WrapLayout := by
  unfold Obligations.WrapLayout
  intro p c params
  refine ⟨fun hpos hmax => ?_, wrap_nil p c, rfl⟩
  have hwrap := wrap_of_ne_nil (List.ne_nil_of_length_pos hpos) p c
  refine ⟨hwrap, by simp [hwrap], ?_⟩
  have hbyte : params.length % 2 ^ 8 = params.length := Nat.mod_eq_of_lt (by omega)
  simpa [hwrap] using hbyte

/-! ### The equivalences between operations (30_encoding R75) -/

/-- A cipher operation on a range in bounds is the operation on a buffer that holds just that range, errors included
(20_memory R42; 40_cipher_common R101). -/
theorem cipherOp_range_eq_whole {m : Bytes} {o n : Nat} (h : o + n ≤ m.length) (C : Cipher) (dir : Dir)
    (iv key : Bytes) (s : State) :
    cipherOp C dir iv key m ⟨o, n⟩ s = cipherOp C dir iv key (slice m o n) (wholeOf (slice m o n)) s := by
  have hlen : (slice m o n).length = n := by rw [slice_length]; omega
  have herror : cipherError C iv key m ⟨o, n⟩ = cipherError C iv key (slice m o n) (wholeOf (slice m o n)) := by
    simp [cipherError, hlen, Nat.not_lt.mpr h]
  rw [cipherOp_eq, cipherOp_eq, herror, wholeOf_off, wholeOf_len, slice_whole]

/-- Where the framer is present and Lc can state the parameters, `SEND_CHAIN` is `SEND_APDU_CHAIN` of the wrapped
command (43_framer R183, R185). -/
theorem execSendChain_eq_execSendApduChain {m : Bytes} {s : State} (hf : s.cfg.hasFramer = true)
    (hlen : m.length ≤ 255) (c : Byte) : execSendChain m c s = execSendApduChain (wrap s.cfg c m) s := by
  have hchecks : framerError s m (wholeOf m) = none := framerError_eq_none.mpr ⟨hf, by simp, hlen⟩
  rw [execSendChain, sendChained_eq, execSendApduChain_eq, hchecks, unitError_eq_none.mpr hf, wholeOf_off,
    wholeOf_len, slice_whole]

/-- Settles O21: a whole form is the range form from 0 and a Z form the form with the zero IV, by definition; the other
rows are the two lemmas above. -/
theorem pseudoFormsAgree : Obligations.PseudoFormsAgree := by
  unfold Obligations.PseudoFormsAgree
  intro iv key m o n c e s
  refine ⟨rfl, rfl, rfl, rfl, fun h => ?_, fun hf => ⟨rfl, rfl, fun hlen => ?_⟩⟩
  · exact ⟨cipherOp_range_eq_whole h aesCipher .decrypt iv key s,
      cipherOp_range_eq_whole h tdesCipher .decrypt iv key s,
      cipherOp_range_eq_whole h tdesCipher .decrypt (zeros tdesCipher.block) key s⟩
  · exact execSendChain_eq_execSendApduChain hf hlen c

end Sys2Proof.Machine
end

section
/-!
PROOFS. The CBC recurrences, once for each direction, as facts about the blocks of the result; the laws that follow
from them; and that the recurrence hands the primitives whole blocks only.
-/

namespace Sys2Proof.Machine

/-! ### XOR and blocks (00_scope R13; 20_memory R48) -/

theorem xorBytes_comm (a b : Bytes) : xorBytes a b = xorBytes b a :=
  List.zipWith_comm_of_comm BitVec.xor_comm

/-- XOR of one sequence with two different ones of its length gives different sequences. -/
theorem xorBytes_left_cancel {a b c : Bytes} (hb : b.length ≤ a.length) (hc : c.length ≤ a.length)
    (h : xorBytes a b = xorBytes a c) : b = c := by
  rw [← xorBytes_cancel b a hb, xorBytes_comm b, h, xorBytes_comm a, xorBytes_cancel c a hc]

theorem blockAt_length {n i : Nat} {x : Bytes} (h : (i + 1) * n ≤ x.length) : (blockAt n x i).length = n := by
  rw [Nat.succ_mul] at h
  rw [blockAt, slice_length]
  omega

/-- Each block of `m` whole blocks is whole. -/
theorem blockAt_length_of_lt {n m i : Nat} {x : Bytes} (hx : x.length = m * n) (hi : i < m) :
    (blockAt n x i).length = n := blockAt_length (hx ▸ Nat.mul_le_mul_right n hi)

theorem blockAt_append_zero {n : Nat} {a : Bytes} (ha : a.length = n) (r : Bytes) : blockAt n (a ++ r) 0 = a := by
  simp [blockAt, slice, ← ha]

theorem blockAt_append_succ {n : Nat} {a : Bytes} (ha : a.length = n) (r : Bytes) (i : Nat) :
    blockAt n (a ++ r) (i + 1) = blockAt n r i := by
  rw [blockAt, blockAt, slice, slice, Nat.succ_mul, Nat.add_comm, ← List.drop_drop, List.drop_left' ha]

/-- The blocks of what follows the first `j` blocks are the later blocks. -/
theorem blockAt_drop (n : Nat) (x : Bytes) (i j : Nat) : blockAt n (x.drop (j * n)) i = blockAt n x (j + i) := by
  rw [blockAt, blockAt, slice, slice, List.drop_drop, Nat.add_mul]

theorem blockAt_zero_append_drop (n : Nat) (x : Bytes) : blockAt n x 0 ++ x.drop n = x := by
  simp [blockAt, slice]

/-- A sequence of whole blocks is given by its blocks. -/
theorem eq_of_blockAt_eq {n m : Nat} {x y : Bytes} (hx : x.length = m * n) (hy : y.length = m * n)
    (h : ∀ i, i < m → blockAt n x i = blockAt n y i) : x = y := by
  induction m generalizing x y with
  | zero =>
    rw [Nat.zero_mul, List.length_eq_zero_iff] at hx hy
    rw [hx, hy]
  | succ m ih =>
    rw [Nat.succ_mul] at hx hy
    have hrest : x.drop n = y.drop n := by
      refine ih (by rw [List.length_drop]; omega) (by rw [List.length_drop]; omega) fun i hi => ?_
      simpa [← blockAt_drop, Nat.add_comm i] using h (i + 1) (by omega)
    rw [← blockAt_zero_append_drop n x, ← blockAt_zero_append_drop n y, h 0 (by omega), hrest]

/-! ### The recurrences (40_cipher_common R97, R98) -/

theorem cbcLoop_encrypt_succ (C : Cipher) (k x v : Bytes) (m j : Nat) :
    (cbcLoop C .encrypt k x (m + 1) ⟨v, j⟩).1 =
      C.enc k (xorBytes (blockAt C.block x j) v) ++
        (cbcLoop C .encrypt k x m ⟨C.enc k (xorBytes (blockAt C.block x j) v), j + 1⟩).1 := rfl

theorem cbcLoop_decrypt_succ (C : Cipher) (k x v : Bytes) (m j : Nat) :
    (cbcLoop C .decrypt k x (m + 1) ⟨v, j⟩).1 =
      xorBytes (C.dec k (blockAt C.block x j)) v ++
        (cbcLoop C .decrypt k x m ⟨blockAt C.block x j, j + 1⟩).1 := rfl

/-- The encryption recurrence on `m` blocks from block `j` on: each block of the result is the primitive's value on a
plaintext block XOR the block of the result before it, the chaining value `v` before the first. -/
theorem cbcLoop_encrypt {C : Cipher} {k x v : Bytes} {m j : Nat}
    (henc : ∀ b, b.length = C.block → (C.enc k b).length = C.block) (hv : v.length = C.block)
    (hx : (j + m) * C.block ≤ x.length) :
    (cbcLoop C .encrypt k x m ⟨v, j⟩).1.length = m * C.block ∧
    ∀ i, i < m → blockAt C.block (cbcLoop C .encrypt k x m ⟨v, j⟩).1 i =
      C.enc k (xorBytes (blockAt C.block x (j + i))
        (if i = 0 then v else blockAt C.block (cbcLoop C .encrypt k x m ⟨v, j⟩).1 (i - 1))) := by
  induction m generalizing v j with
  | zero => simp [cbcLoop]
  | succ m ih =>
    have hblock : (blockAt C.block x j).length = C.block :=
      blockAt_length (le_trans (Nat.mul_le_mul_right _ (by omega)) hx)
    rw [cbcLoop_encrypt_succ]
    generalize hc : C.enc k (xorBytes (blockAt C.block x j) v) = c
    have hclen : c.length = C.block := hc ▸ henc _ (by simp [hblock, hv])
    obtain ⟨hlen, hrec⟩ := ih (j := j + 1) hclen (le_trans (Nat.mul_le_mul_right _ (by omega)) hx)
    refine ⟨by rw [List.length_append, hlen, hclen, Nat.succ_mul, Nat.add_comm], fun i hi => ?_⟩
    cases i with
    | zero => rw [blockAt_append_zero hclen]; exact hc.symm
    | succ i =>
      rw [blockAt_append_succ hclen, hrec i (by omega), Nat.add_right_comm j 1 i]
      cases i with
      | zero => simp [blockAt_append_zero hclen]
      | succ i => simp [blockAt_append_succ hclen, Nat.add_assoc]

/-- The decryption recurrence on `m` blocks from block `j` on: each block of the result is the primitive's value on a
cipher block XOR the cipher block before it, the chaining value `v` before the first. -/
theorem cbcLoop_decrypt {C : Cipher} {k x v : Bytes} {m j : Nat}
    (hdec : ∀ i, i < m → (C.dec k (blockAt C.block x (j + i))).length = C.block) (hv : v.length = C.block)
    (hx : (j + m) * C.block ≤ x.length) :
    (cbcLoop C .decrypt k x m ⟨v, j⟩).1.length = m * C.block ∧
    ∀ i, i < m → blockAt C.block (cbcLoop C .decrypt k x m ⟨v, j⟩).1 i =
      xorBytes (C.dec k (blockAt C.block x (j + i))) (if i = 0 then v else blockAt C.block x (j + i - 1)) := by
  induction m generalizing v j with
  | zero => simp [cbcLoop]
  | succ m ih =>
    have hblock : (blockAt C.block x j).length = C.block :=
      blockAt_length (le_trans (Nat.mul_le_mul_right _ (by omega)) hx)
    have hfirst : (C.dec k (blockAt C.block x j)).length = C.block := hdec 0 (by omega)
    have hout : (xorBytes (C.dec k (blockAt C.block x j)) v).length = C.block := by
      rw [xorBytes_length, hfirst, hv, min_self]
    have hshift (i : Nat) : j + 1 + i = j + (i + 1) := by omega
    obtain ⟨hlen, hrec⟩ := ih (j := j + 1) (fun i hi => hshift i ▸ hdec (i + 1) (by omega)) hblock
      (le_trans (Nat.mul_le_mul_right _ (by omega)) hx)
    rw [cbcLoop_decrypt_succ]
    refine ⟨by rw [List.length_append, hlen, hout, Nat.succ_mul, Nat.add_comm], fun i hi => ?_⟩
    cases i with
    | zero => rw [blockAt_append_zero hout]; rfl
    | succ i =>
      rw [blockAt_append_succ hout, hrec i (by omega), hshift]
      cases i <;> simp

/-- The loop of a whole range of `m` blocks. -/
theorem cbcRun_eq_cbcLoop {C : Cipher} {x : Bytes} {m : Nat} (hB : 0 < C.block) (hx : x.length = m * C.block)
    (dir : Dir) (iv k : Bytes) : cbcRun C dir iv k x = cbcLoop C dir k x m ⟨iv, 0⟩ := by
  rw [cbcRun, hx, Nat.mul_div_cancel m hB]

/-- Settles O25: the recurrence from block 0 on. -/
theorem cbcEncryptionRecurrence : Obligations.CbcEncryptionRecurrence := by
  unfold Obligations.CbcEncryptionRecurrence
  intro C iv k x m hB hiv hx henc
  rw [cbcEnc, cbcRun_eq_cbcLoop hB hx]
  obtain ⟨hlen, hrec⟩ := cbcLoop_encrypt (j := 0) henc hiv (by rw [Nat.zero_add, hx])
  exact ⟨hlen, fun i hi => by simpa only [Nat.zero_add] using hrec i hi⟩

/-! ### Decryption (40_cipher_common R98) -/

section
variable {C : Cipher} {iv k x : Bytes} {m : Nat} (hB : 0 < C.block) (hiv : iv.length = C.block)
  (hx : x.length = m * C.block)
include hB hiv hx

/-- The decryption recurrence of a whole range, where the primitive gives blocks on the range's own blocks. -/
theorem cbcDec_recurrence (hdec : ∀ i, i < m → (C.dec k (blockAt C.block x i)).length = C.block) :
    (cbcDec C iv k x).length = m * C.block ∧
    ∀ i, i < m → blockAt C.block (cbcDec C iv k x) i =
      xorBytes (C.dec k (blockAt C.block x i)) (if i = 0 then iv else blockAt C.block x (i - 1)) := by
  rw [cbcDec, cbcRun_eq_cbcLoop hB hx]
  obtain ⟨hlen, hrec⟩ :=
    cbcLoop_decrypt (j := 0) (by simpa only [Nat.zero_add] using hdec) hiv (by rw [Nat.zero_add, hx])
  exact ⟨hlen, fun i hi => by simpa only [Nat.zero_add] using hrec i hi⟩

/-- Decryption that starts at block `j > 0`, from the cipher block before it, gives the rest of the result. -/
theorem cbcDec_drop (hdec : ∀ b, b.length = C.block → (C.dec k b).length = C.block) {j : Nat} (hj : 0 < j)
    (hjm : j ≤ m) :
    cbcDec C (blockAt C.block x (j - 1)) k (x.drop (j * C.block)) = (cbcDec C iv k x).drop (j * C.block) := by
  have hdrop (y : Bytes) (hy : y.length = m * C.block) : (y.drop (j * C.block)).length = (m - j) * C.block := by
    rw [List.length_drop, hy, Nat.sub_mul]
  obtain ⟨hlen, hrec⟩ := cbcDec_recurrence hB hiv hx fun i hi => hdec _ (blockAt_length_of_lt hx hi)
  obtain ⟨hlen', hrec'⟩ := cbcDec_recurrence hB (blockAt_length_of_lt hx (i := j - 1) (by omega)) (hdrop x hx)
    fun i hi => hdec _ (blockAt_length_of_lt (hdrop x hx) hi)
  refine eq_of_blockAt_eq hlen' (hdrop _ hlen) fun i hi => ?_
  rw [hrec' i hi, blockAt_drop, blockAt_drop, blockAt_drop, hrec (j + i) (by omega), if_neg (c := j + i = 0) (by omega)]
  cases i with
  | zero => rfl
  | succ i => rfl

end

/-- Settles O26: the later blocks depend on the block before them only, and XOR with another chaining value gives
another first block. -/
theorem cbcDecryptionRecurrence : Obligations.CbcDecryptionRecurrence := by
  unfold Obligations.CbcDecryptionRecurrence
  intro C iv k x m hB hiv hx hdec
  obtain ⟨hlen, hrec⟩ := cbcDec_recurrence hB hiv hx fun i hi => hdec _ (blockAt_length_of_lt hx hi)
  refine ⟨hlen, hrec, fun j hj hjm => cbcDec_drop hB hiv hx hdec hj hjm, fun j iv' hj hjm hiv' hne => ?_⟩
  have hdrop : (x.drop (j * C.block)).length = (m - j) * C.block := by rw [List.length_drop, hx, Nat.sub_mul]
  obtain ⟨-, hrec'⟩ := cbcDec_recurrence hB hiv' hdrop fun i hi => hdec _ (blockAt_length_of_lt hdrop hi)
  constructor
  · rw [hrec' 0 (by omega), hrec j hjm, if_pos rfl, if_neg (by omega), blockAt_drop, Nat.add_zero]
    have hd := hdec _ (blockAt_length_of_lt hx hjm)
    exact fun h => hne (xorBytes_left_cancel (by omega) (by rw [blockAt_length_of_lt hx (by omega), hd]) h)
  · have hrest := cbcDec_drop hB hiv' hdrop hdec one_pos (by omega)
    rw [Nat.one_mul, blockAt_drop, List.drop_drop, ← Nat.succ_mul] at hrest
    exact hrest.symm.trans (cbcDec_drop hB hiv hx hdec j.succ_pos hjm)

/-! ### The round trip (40_cipher_common R100) -/

/-- `c[i-1]` of the recurrences: the block before block `i`, the IV before the first. -/
def previousBlock (n : Nat) (iv c : Bytes) (i : Nat) : Bytes := if i = 0 then iv else blockAt n c (i - 1)

theorem previousBlock_length {n m i : Nat} {iv c : Bytes} (hiv : iv.length = n) (hc : c.length = m * n)
    (hi : i < m) : (previousBlock n iv c i).length = n := by
  cases i with
  | zero => exact hiv
  | succ i => exact blockAt_length_of_lt hc (by omega)

/-- Decrypting the encryption of a message of whole blocks gives the message, where the primitives are inverse. -/
theorem cbcDec_cbcEnc {C : Cipher} {iv k x : Bytes} (hB : 0 < C.block) (hiv : iv.length = C.block)
    (hx : x.length % C.block = 0) (henc : ∀ b, b.length = C.block → (C.enc k b).length = C.block)
    (hinv : ∀ b, b.length = C.block → C.dec k (C.enc k b) = b) : cbcDec C iv k (cbcEnc C iv k x) = x := by
  obtain ⟨m, hm⟩ := Nat.dvd_of_mod_eq_zero hx
  rw [Nat.mul_comm] at hm
  obtain ⟨hlen, hrec⟩ := cbcEncryptionRecurrence C iv k x m hB hiv hm henc
  generalize cbcEnc C iv k x = y at hlen hrec
  have hsize (i : Nat) (hi : i < m) :
      (blockAt C.block x i).length = C.block ∧ (previousBlock C.block iv y i).length = C.block :=
    ⟨blockAt_length_of_lt hm hi, previousBlock_length hiv hlen hi⟩
  have hdec (i : Nat) (hi : i < m) :
      C.dec k (blockAt C.block y i) = xorBytes (blockAt C.block x i) (previousBlock C.block iv y i) := by
    obtain ⟨hblock, hprev⟩ := hsize i hi
    rw [hrec i hi]
    exact hinv _ (by rw [xorBytes_length, hblock]; exact min_eq_left hprev.ge)
  obtain ⟨hlen', hrec'⟩ := cbcDec_recurrence hB hiv hlen fun i hi => by
    obtain ⟨hblock, hprev⟩ := hsize i hi
    rw [hdec i hi, xorBytes_length, hblock, hprev, min_self]
  refine eq_of_blockAt_eq hlen' hm fun i hi => ?_
  obtain ⟨hblock, hprev⟩ := hsize i hi
  rw [hrec' i hi, hdec i hi]
  exact xorBytes_cancel _ _ (by rw [hblock, hprev])

/-! ### The operands of the primitives (40_cipher_common R103, R104) -/

/-- The records `C'` and `C` agree on keys of `KL` bytes and blocks of `B` bytes, where encryption gives blocks. -/
def Cipher.AgreesOnBlocks (C' C : Cipher) : Prop :=
  ∀ k b, k.length = C.keyLen → b.length = C.block →
    C'.enc k b = C.enc k b ∧ C'.dec k b = C.dec k b ∧ (C.enc k b).length = C.block

section
variable {C C' : Cipher} (hB : C'.block = C.block) (hagree : C'.AgreesOnBlocks C) {k : Bytes}
  (hk : k.length = C.keyLen) (dir : Dir) {x : Bytes}
include hB hagree hk

/-- One block of the recurrence calls the primitive on a whole block and leaves a whole block to chain. -/
theorem cbcBlock_congr {w : CipherWork} (hw : w.chain.length = C.block) (hx : (w.index + 1) * C.block ≤ x.length) :
    cbcBlock C' dir k x w = cbcBlock C dir k x w ∧ (cbcBlock C dir k x w).2.chain.length = C.block := by
  have hblock : (blockAt C.block x w.index).length = C.block := blockAt_length hx
  cases dir with
  | encrypt =>
    obtain ⟨henc, -, hlen⟩ := hagree k (xorBytes (blockAt C.block x w.index) w.chain) hk (by simp [hblock, hw])
    exact ⟨by simp only [cbcBlock, hB, henc], hlen⟩
  | decrypt =>
    obtain ⟨-, hdec, -⟩ := hagree k (blockAt C.block x w.index) hk hblock
    exact ⟨by simp only [cbcBlock, hB, hdec], hblock⟩

theorem cbcLoop_congr (m : Nat) {w : CipherWork} (hw : w.chain.length = C.block)
    (hx : (w.index + m) * C.block ≤ x.length) : cbcLoop C' dir k x m w = cbcLoop C dir k x m w := by
  induction m generalizing w with
  | zero => rfl
  | succ m ih =>
    obtain ⟨hsame, hchain⟩ :=
      cbcBlock_congr hB hagree hk dir hw (le_trans (Nat.mul_le_mul_right _ (by omega)) hx)
    have hindex : (cbcBlock C dir k x w).2.index = w.index + 1 := by cases dir <;> rfl
    have hrest := ih hchain (by rw [hindex]; exact le_trans (Nat.mul_le_mul_right _ (by omega)) hx)
    simp only [cbcLoop, hsame, hrest]

theorem cbcRun_congr {iv : Bytes} (hiv : iv.length = C.block) : cbcRun C' dir iv k x = cbcRun C dir iv k x := by
  rw [cbcRun, cbcRun, hB]
  exact cbcLoop_congr hB hagree hk dir _ hiv (by rw [Nat.zero_add]; exact Nat.div_mul_le_self ..)

end

/-- Settles O28: the checks read the sizes only, and where they pass the key has `KL` bytes and the IV `B`. -/
theorem primitiveCalledOnGoodOperandsOnly : Obligations.PrimitiveCalledOnGoodOperandsOnly := by
  unfold Obligations.PrimitiveCalledOnGoodOperandsOnly
  intro C C' hB hKL hagree dir iv key msg rg s
  have hchecks : cipherError C' iv key msg rg = cipherError C iv key msg rg := by simp only [cipherError, hB, hKL]
  rw [cipherOp_eq, cipherOp_eq, hchecks]
  cases h : cipherError C iv key msg rg with
  | some e => rfl
  | none =>
    obtain ⟨hkey, hiv, -, -⟩ := cipherError_eq_none.mp h
    simp only [cbcRun_congr hB hagree hkey dir hiv]

end Sys2Proof.Machine
end

section
/-!
PROOFS. The default AES-128 primitive: its round keys and blocks have sixteen bytes, each step of a round of the
inverse cipher undoes its step of the cipher, and so decryption undoes encryption.
-/

namespace Sys2Proof.Machine

/-! ### The key expansion (41_aes R121) -/

@[simp] theorem keyTemp_length (i : Nat) {prev : Bytes} (h : prev.length = 4) : (keyTemp i prev).length = 4 := by
  unfold keyTemp
  split
  · simp only [xorBytes_length, subWord, rotWord, List.length_map, List.length_append, List.length_drop,
      List.length_take, h]
    rfl
  · exact h

/-- One step of the key expansion: word `i` after the words before it. -/
def keyExtend (w : List Bytes) (i : Nat) : List Bytes :=
  w ++ [xorBytes (w.getD (i - 4) []) (keyTemp i (w.getD (i - 1) []))]

theorem keyWords_eq_foldl (k : Bytes) :
    keyWords k = (List.range' 4 40).foldl keyExtend ((List.range 4).map fun i => slice k (4 * i) 4) := rfl

/-- The words before word `n`, four bytes each. -/
structure KeyWordsBefore (n : Nat) (w : List Bytes) : Prop where
  count : w.length = n
  sizes : ∀ v ∈ w, v.length = 4

theorem KeyWordsBefore.getD_length {n i : Nat} {w : List Bytes} (h : KeyWordsBefore n w) (hi : i < n) :
    (w.getD i []).length = 4 := by
  obtain ⟨rfl, hsizes⟩ := h
  rw [List.getD_eq_getElem _ _ hi]
  exact hsizes _ (List.getElem_mem hi)

theorem KeyWordsBefore.keyExtend {n : Nat} {w : List Bytes} (h : KeyWordsBefore n w) (hn : 4 ≤ n) :
    KeyWordsBefore (n + 1) (keyExtend w n) := by
  have hnew : (xorBytes (w.getD (n - 4) []) (keyTemp n (w.getD (n - 1) []))).length = 4 := by
    rw [xorBytes_length, h.getD_length (by omega), keyTemp_length n (h.getD_length (by omega)), min_self]
  obtain ⟨rfl, hsizes⟩ := h
  refine ⟨by simp [Machine.keyExtend], fun v hv => ?_⟩
  obtain hv | rfl := List.mem_append.mp hv |>.imp_right List.mem_singleton.mp
  · exact hsizes v hv
  · exact hnew

theorem KeyWordsBefore.foldl {n : Nat} {w : List Bytes} (h : KeyWordsBefore n w) (hn : 4 ≤ n) (m : Nat) :
    KeyWordsBefore (n + m) ((List.range' n m).foldl Machine.keyExtend w) := by
  induction m generalizing n w with
  | zero => exact h
  | succ m ih =>
    rw [List.range'_succ, List.foldl_cons, Nat.add_comm m, ← Nat.add_assoc]
    exact ih (h.keyExtend hn) (by omega)

/-- The expansion of a sixteen-byte key has 44 words of four bytes. -/
theorem keyWords_wordsBefore {k : Bytes} (hk : k.length = 16) : KeyWordsBefore 44 (keyWords k) := by
  refine KeyWordsBefore.foldl (n := 4) ⟨rfl, fun v hv => ?_⟩ le_rfl 40
  obtain ⟨i, hi, rfl⟩ := List.mem_map.mp hv
  rw [List.mem_range] at hi
  rw [slice_length]
  omega

theorem roundKey_length {k : Bytes} (hk : k.length = 16) {r : Nat} (hr : r ≤ 10) :
    (roundKey (keyWords k) r).length = 16 := by
  obtain ⟨hcount, hsizes⟩ := keyWords_wordsBefore hk
  have hwords : (((keyWords k).drop (4 * r)).take 4).map List.length = List.replicate 4 4 := by
    refine List.eq_replicate_iff.mpr ⟨by simp only [List.length_map, List.length_take, List.length_drop]; omega, ?_⟩
    intro n hn
    obtain ⟨v, hv, rfl⟩ := List.mem_map.mp hn
    exact hsizes v (List.mem_of_mem_drop (List.mem_of_mem_take hv))
  rw [roundKey, List.length_flatten, hwords]
  rfl

/-! ### Blocks as four rows by four columns (41_aes R113) -/

@[simp] theorem stateOf_length (f : Nat → Nat → Byte) : (stateOf f).length = 16 := by simp [stateOf]

@[simp] theorem shiftRows_length (s : Bytes) : (shiftRows s).length = 16 := stateOf_length _

@[simp] theorem invShiftRows_length (s : Bytes) : (invShiftRows s).length = 16 := stateOf_length _

@[simp] theorem mixColumns_length (s : Bytes) : (mixColumns s).length = 16 := stateOf_length _

@[simp] theorem invMixColumns_length (s : Bytes) : (invMixColumns s).length = 16 := stateOf_length _

@[simp] theorem subBytes_length (s : Bytes) : (subBytes s).length = s.length := List.length_map ..

theorem stateAt_stateOf (f : Nat → Nat → Byte) {r c : Nat} (hr : r < 4) (hc : c < 4) :
    stateAt (stateOf f) r c = f r c := by
  interval_cases r <;> interval_cases c <;> rfl

/-- A block is given by its bytes at each row and column. -/
theorem eq_of_stateAt_eq {s t : Bytes} (hs : s.length = 16) (ht : t.length = 16)
    (h : ∀ r c, r < 4 → c < 4 → stateAt s r c = stateAt t r c) : s = t := by
  refine List.ext_getElem (hs.trans ht.symm) fun i his hit => ?_
  have hbyte := h (i % 4) (i / 4) (by omega) (by omega)
  rwa [stateAt, stateAt, Nat.mod_add_div, List.getD_eq_getElem _ _ his, List.getD_eq_getElem _ _ hit] at hbyte

/-! ### The steps of a round and their inverses (41_aes R117 to R123) -/

/-- The inverse table undoes the table (R116). -/
theorem invSbox_sbox : ∀ a : Byte, invSbox (sbox a) = a := by decide

theorem invSubBytes_subBytes (s : Bytes) : invSubBytes (subBytes s) = s := by
  simp [invSubBytes, subBytes, Function.comp_def, invSbox_sbox]

theorem invShiftRows_shiftRows {s : Bytes} (hs : s.length = 16) : invShiftRows (shiftRows s) = s := by
  refine eq_of_stateAt_eq (invShiftRows_length _) hs fun r c hr hc => ?_
  rw [invShiftRows, stateAt_stateOf _ hr hc, shiftRows, stateAt_stateOf _ hr (by omega),
    show ((c + 4 - r) % 4 + r) % 4 = c by omega]

theorem xtime_eq (a : Byte) : xtime a = (a <<< 1) ^^^ (if a.getLsbD 7 then 0x1B#8 else 0x00#8) := by
  unfold xtime
  split <;> simp

/-- Doubling is linear (R114). -/
theorem xtime_xor (a b : Byte) : xtime (a ^^^ b) = xtime a ^^^ xtime b := by
  have hreduce (p q : Bool) : (if (p ^^ q) then 0x1B#8 else 0x00#8) =
      (if p then 0x1B#8 else 0x00#8) ^^^ (if q then 0x1B#8 else 0x00#8) := by
    cases p <;> cases q <;> rfl
  rw [xtime_eq, xtime_eq, xtime_eq, BitVec.getLsbD_xor, hreduce, BitVec.shiftLeft_xor_distrib]
  ac_rfl

theorem xtimes_xor (i : Nat) (a b : Byte) : xtimes i (a ^^^ b) = xtimes i a ^^^ xtimes i b := by
  induction i with
  | zero => rfl
  | succ i ih => rw [xtimes, ih, xtime_xor, xtimes, xtimes]

/-- One bit of the multiplier in the field product. -/
def gmulStep (k a acc : Byte) (i : Nat) : Byte := if k.getLsbD i then acc ^^^ xtimes i a else acc

theorem gmul_eq_foldl (a k : Byte) : gmul a k = (List.range 8).foldl (gmulStep k a) 0#8 := rfl

theorem foldl_gmulStep_xor (k a b : Byte) (is : List Nat) (p q : Byte) :
    is.foldl (gmulStep k (a ^^^ b)) (p ^^^ q) = is.foldl (gmulStep k a) p ^^^ is.foldl (gmulStep k b) q := by
  induction is generalizing p q with
  | nil => rfl
  | cons i is ih =>
    have hstep : gmulStep k (a ^^^ b) (p ^^^ q) i = gmulStep k a p i ^^^ gmulStep k b q i := by
      unfold gmulStep
      split
      · rw [xtimes_xor]; ac_rfl
      · rfl
    rw [List.foldl_cons, hstep, ih, List.foldl_cons, List.foldl_cons]

/-- The field product is linear in its first factor (R114). -/
theorem gmul_xor (a b k : Byte) : gmul (a ^^^ b) k = gmul a k ^^^ gmul b k := by
  simp only [gmul_eq_foldl, ← foldl_gmulStep_xor, BitVec.xor_self]

/-! The products by the entries of the two matrices, as sums of doublings (R114, R119, R123). -/

theorem gmul_one (a : Byte) : gmul a 1#8 = a := by simp [gmul, List.range, List.range.loop, xtimes]

theorem gmul_two (a : Byte) : gmul a 2#8 = xtime a := by simp [gmul, List.range, List.range.loop, xtimes]

theorem gmul_three (a : Byte) : gmul a 3#8 = a ^^^ xtime a := by simp [gmul, List.range, List.range.loop, xtimes]

theorem gmul_nine (a : Byte) : gmul a 9#8 = a ^^^ xtime (xtime (xtime a)) := by
  simp [gmul, List.range, List.range.loop, xtimes]

theorem gmul_eleven (a : Byte) : gmul a 11#8 = a ^^^ xtime a ^^^ xtime (xtime (xtime a)) := by
  simp [gmul, List.range, List.range.loop, xtimes]

theorem gmul_thirteen (a : Byte) : gmul a 13#8 = a ^^^ xtime (xtime a) ^^^ xtime (xtime (xtime a)) := by
  simp [gmul, List.range, List.range.loop, xtimes]

theorem gmul_fourteen (a : Byte) : gmul a 14#8 = xtime a ^^^ xtime (xtime a) ^^^ xtime (xtime (xtime a)) := by
  simp [gmul, List.range, List.range.loop, xtimes]

theorem byteXor_left_comm (a b c : Byte) : a ^^^ (b ^^^ c) = b ^^^ (a ^^^ c) := by
  rw [← BitVec.xor_assoc, BitVec.xor_comm a, BitVec.xor_assoc]

/-- The first row of the inverse matrix times the columns of the matrix: one at the first, zero at the others (R119,
R123). -/
theorem invMix_row_mix_column (a : Byte) :
    gmul (gmul a 2#8) 14#8 ^^^ gmul a 11#8 ^^^ gmul a 13#8 ^^^ gmul (gmul a 3#8) 9#8 = a ∧
    gmul (gmul a 3#8) 14#8 ^^^ gmul (gmul a 2#8) 11#8 ^^^ gmul a 13#8 ^^^ gmul a 9#8 = 0#8 ∧
    gmul a 14#8 ^^^ gmul (gmul a 3#8) 11#8 ^^^ gmul (gmul a 2#8) 13#8 ^^^ gmul a 9#8 = 0#8 ∧
    gmul a 14#8 ^^^ gmul a 11#8 ^^^ gmul (gmul a 3#8) 13#8 ^^^ gmul (gmul a 2#8) 9#8 = 0#8 := by
  simp only [gmul_two, gmul_three, gmul_nine, gmul_eleven, gmul_thirteen, gmul_fourteen, xtime_xor]
  refine ⟨?_, ?_, ?_, ?_⟩ <;>
    simp only [BitVec.xor_assoc, BitVec.xor_comm, byteXor_left_comm, xor_cancel_left, BitVec.xor_self, BitVec.xor_zero,
      BitVec.zero_xor]

/-- The first row of the inverse matrix undoes the matrix (R119, R123). -/
theorem invMix_mix (a b c d : Byte) :
    gmul (gmul a 2#8 ^^^ gmul b 3#8 ^^^ gmul c 1#8 ^^^ gmul d 1#8) 14#8 ^^^
      gmul (gmul b 2#8 ^^^ gmul c 3#8 ^^^ gmul d 1#8 ^^^ gmul a 1#8) 11#8 ^^^
      gmul (gmul c 2#8 ^^^ gmul d 3#8 ^^^ gmul a 1#8 ^^^ gmul b 1#8) 13#8 ^^^
      gmul (gmul d 2#8 ^^^ gmul a 3#8 ^^^ gmul b 1#8 ^^^ gmul c 1#8) 9#8 = a := by
  obtain ⟨ha, -, -, -⟩ := invMix_row_mix_column a
  obtain ⟨-, hb, -, -⟩ := invMix_row_mix_column b
  obtain ⟨-, -, hc, -⟩ := invMix_row_mix_column c
  obtain ⟨-, -, -, hd⟩ := invMix_row_mix_column d
  calc _ = (gmul (gmul a 2#8) 14#8 ^^^ gmul a 11#8 ^^^ gmul a 13#8 ^^^ gmul (gmul a 3#8) 9#8) ^^^
        (gmul (gmul b 3#8) 14#8 ^^^ gmul (gmul b 2#8) 11#8 ^^^ gmul b 13#8 ^^^ gmul b 9#8) ^^^
        (gmul c 14#8 ^^^ gmul (gmul c 3#8) 11#8 ^^^ gmul (gmul c 2#8) 13#8 ^^^ gmul c 9#8) ^^^
        (gmul d 14#8 ^^^ gmul d 11#8 ^^^ gmul (gmul d 3#8) 13#8 ^^^ gmul (gmul d 2#8) 9#8) := by
          simp only [gmul_xor, gmul_one]
          ac_rfl
    _ = a := by rw [ha, hb, hc, hd, BitVec.xor_zero, BitVec.xor_zero, BitVec.xor_zero]

theorem invMixColumns_mixColumns {s : Bytes} (hs : s.length = 16) : invMixColumns (mixColumns s) = s := by
  refine eq_of_stateAt_eq (invMixColumns_length _) hs fun r c hr hc => ?_
  have hrow (r' : Nat) : r' % 4 < 4 := Nat.mod_lt _ (by decide)
  rw [invMixColumns, mixWith, stateAt_stateOf _ hr hc, mixColumns, mixWith, stateAt_stateOf _ hr hc,
    stateAt_stateOf _ (hrow _) hc, stateAt_stateOf _ (hrow _) hc, stateAt_stateOf _ (hrow _) hc]
  simp only [Nat.mod_add_mod, Nat.add_assoc, Nat.reduceAdd]
  rw [show (r + 4) % 4 = r by omega, show (r + 5) % 4 = (r + 1) % 4 by omega,
    show (r + 6) % 4 = (r + 2) % 4 by omega]
  exact invMix_mix ..

/-! ### The cipher and its inverse (41_aes R122, R124) -/

/-- The inverse round undoes a round, both seen between the substitution and the mixing (R122, R124). -/
theorem aesInvRound_aesRound (s : Bytes) {rk : Bytes} (hrk : rk.length = 16) :
    aesInvRound (shiftRows (subBytes (aesRound s rk))) rk = shiftRows (subBytes s) := by
  have hround : (aesRound s rk).length = 16 := by simp [aesRound, addRoundKey, hrk]
  rw [aesInvRound, invShiftRows_shiftRows (by rw [subBytes_length, hround]), invSubBytes_subBytes, aesRound,
    addRoundKey, addRoundKey, xorBytes_cancel _ _ (by simp [hrk]), invMixColumns_mixColumns (shiftRows_length _)]

/-- The inverse rounds in reverse order undo the rounds. -/
theorem aesInvRounds_aesRounds (rk : Nat → Bytes) (rs : List Nat) (hrk : ∀ r ∈ rs, (rk r).length = 16) (s : Bytes) :
    rs.reverse.foldl (fun s r => aesInvRound s (rk r))
      (shiftRows (subBytes (rs.foldl (fun s r => aesRound s (rk r)) s))) = shiftRows (subBytes s) := by
  induction rs generalizing s with
  | nil => rfl
  | cons r rs ih =>
    rw [List.reverse_cons, List.foldl_append, List.foldl_cons (l := rs),
      ih fun r' h => hrk r' (List.mem_cons_of_mem r h)]
    exact aesInvRound_aesRound s (hrk r List.mem_cons_self)

theorem aes128E_length {k : Bytes} (hk : k.length = 16) (b : Bytes) : (aes128E k b).length = 16 := by
  simp [aes128E, addRoundKey, roundKey_length hk]

theorem invSubBytes_length (s : Bytes) : (invSubBytes s).length = s.length := List.length_map ..

theorem aes128D_length {k : Bytes} (hk : k.length = 16) (c : Bytes) : (aes128D k c).length = 16 := by
  simp [aes128D, addRoundKey, invSubBytes_length, roundKey_length hk]

/-- AES-128 decryption undoes encryption (41_aes R125). -/
theorem aes128D_aes128E {k b : Bytes} (hk : k.length = 16) (hb : b.length = 16) : aes128D k (aes128E k b) = b := by
  have hkey (r : Nat) (hr : r ≤ 10) : (roundKey (keyWords k) r).length = 16 := roundKey_length hk hr
  have hstart : (addRoundKey b (roundKey (keyWords k) 0)).length = 16 := by simp [addRoundKey, hb, hkey]
  have hundo := aesInvRounds_aesRounds (roundKey (keyWords k)) (List.range' 1 9)
    (fun r hr => hkey r (by rw [List.mem_range'_1] at hr; omega)) (addRoundKey b (roundKey (keyWords k) 0))
  simp only [aes128D, aes128E]
  generalize (List.range' 1 9).foldl (fun s r => aesRound s (roundKey (keyWords k) r))
    (addRoundKey b (roundKey (keyWords k) 0)) = s at hundo ⊢
  have hlast : addRoundKey (addRoundKey (shiftRows (subBytes s)) (roundKey (keyWords k) 10))
      (roundKey (keyWords k) 10) = shiftRows (subBytes s) := xorBytes_cancel _ _ (by simp [hkey])
  rw [hlast, hundo, invShiftRows_shiftRows (by rw [subBytes_length, hstart]), invSubBytes_subBytes]
  exact xorBytes_cancel _ _ (by rw [hb, hkey 0 (by decide)])

end Sys2Proof.Machine
end

section
/-!
PROOFS. The default Triple-DES primitive: bytes and bits convert without loss, the final permutation is the inverse of
the initial one, and the rounds run backwards with the round keys in reverse order; so decryption undoes encryption.
-/

namespace Sys2Proof.Machine

/-! ### Bytes and bits (42_tdes R149) -/

theorem ofNat_bitsToNat_byteBits : ∀ b : Byte, BitVec.ofNat 8 (bitsToNat (byteBits b)) = b := by decide

theorem byteBits_ofNat_bitsToNat {v : Bits} (hv : v.length = 8) : byteBits (BitVec.ofNat 8 (bitsToNat v)) = v := by
  have hall : ∀ a b c d e f g h : Bool,
      byteBits (BitVec.ofNat 8 (bitsToNat [a, b, c, d, e, f, g, h])) = [a, b, c, d, e, f, g, h] := by decide
  match v, hv with
  | [a, b, c, d, e, f, g, h], _ => exact hall a b c d e f g h

theorem fromBits_toBits (b : Bytes) : fromBits b.length (toBits b) = b := by
  induction b with
  | nil => rfl
  | cons x b ih =>
    have hcons : toBits (x :: b) = byteBits x ++ toBits b := List.flatMap_cons
    rw [hcons, List.length_cons, fromBits, List.take_left' (byteBits_length x), List.drop_left' (byteBits_length x),
      ofNat_bitsToNat_byteBits, ih]

theorem toBits_fromBits {n : Nat} {v : Bits} (hv : v.length = 8 * n) : toBits (fromBits n v) = v := by
  induction n generalizing v with
  | zero => rw [List.length_eq_zero_iff.mp hv]; rfl
  | succ n ih =>
    have hbyte : (v.take 8).length = 8 := by rw [List.length_take]; omega
    have hrest : (v.drop 8).length = 8 * n := by rw [List.length_drop]; omega
    rw [fromBits, toBits, List.flatMap_cons, byteBits_ofNat_bitsToNat hbyte, ← toBits, ih hrest, List.take_append_drop]

/-! ### The permutations (42_tdes R150, R151) -/

/-- One permutation after another is the permutation of the composed table. -/
theorem permute_permute {t t' : List Nat} (h : ∀ i ∈ t', i - 1 < t.length) (v : Bits) :
    permute t' (permute t v) = permute (t'.map fun i => t.getD (i - 1) 0) v := by
  rw [permute, permute, permute, List.map_map]
  refine List.map_congr_left fun i hi => ?_
  simp [List.getD_eq_getElem?_getD, h i hi]

/-- The table `1, ..., n` changes nothing. -/
theorem permute_range' {n : Nat} {v : Bits} (hv : v.length = n) : permute (List.range' 1 n) v = v := by
  refine List.ext_getElem (by simp [hv]) fun i _ hi => ?_
  simp [permute, hi]

theorem desFP_desIP {v : Bits} (hv : v.length = 64) : permute desFP (permute desIP v) = v := by
  rw [permute_permute (by decide), show desFP.map (fun i => desIP.getD (i - 1) 0) = List.range' 1 64 by decide,
    permute_range' hv]

theorem desIP_desFP {v : Bits} (hv : v.length = 64) : permute desIP (permute desFP v) = v := by
  rw [permute_permute (by decide), show desIP.map (fun i => desFP.getD (i - 1) 0) = List.range' 1 64 by decide,
    permute_range' hv]

/-! ### The rounds (42_tdes R158, R159) -/

@[simp] theorem desF_length (r rk : Bits) : (desF r rk).length = 32 := permute_length ..

@[simp] theorem xorBits_length (a b : Bits) : (xorBits a b).length = min a.length b.length := by simp [xorBits]

theorem xorBits_cancel {a b : Bits} (h : a.length = b.length) : xorBits (xorBits a b) b = a := by
  refine List.ext_getElem (by simp [h]) fun i _ _ => ?_
  simp [xorBits]

theorem desRounds_cons (rk : Bits) (rks : List Bits) (lr : Bits × Bits) :
    desRounds (rk :: rks) lr = desRounds rks (lr.2, xorBits lr.1 (desF lr.2 rk)) := rfl

theorem desRounds_append (rks rks' : List Bits) (lr : Bits × Bits) :
    desRounds (rks ++ rks') lr = desRounds rks' (desRounds rks lr) := by
  induction rks generalizing lr with
  | nil => rfl
  | cons rk rks ih => exact ih _

theorem desRounds_length (rks : List Bits) {lr : Bits × Bits} (hl : lr.1.length = 32) (hr : lr.2.length = 32) :
    (desRounds rks lr).1.length = 32 ∧ (desRounds rks lr).2.length = 32 := by
  induction rks generalizing lr with
  | nil => exact ⟨hl, hr⟩
  | cons rk rks ih => exact ih hr (by simp [hl])

/-- The rounds undo themselves on the exchanged halves, with the round keys in reverse order (R159). -/
theorem desRounds_reverse (rks : List Bits) {lr : Bits × Bits} (hl : lr.1.length = 32) (hr : lr.2.length = 32) :
    desRounds rks.reverse (desRounds rks lr).swap = lr.swap := by
  induction rks generalizing lr with
  | nil => rfl
  | cons rk rks ih =>
    rw [List.reverse_cons, desRounds_append, desRounds_cons rk rks lr, ih hr (by simp [hl])]
    simp [desRounds, Prod.swap, xorBits_cancel, hl]

/-! ### DES and TDEA (42_tdes R146, R160) -/

theorem desWith_length (rks : List Bits) (b : Bytes) : (desWith rks b).length = 8 := fromBits_length ..

/-- The halves `(L0, R0)` of a block (R158). -/
def desHalves (b : Bytes) : Bits × Bits :=
  ((permute desIP (toBits b)).take 32, (permute desIP (toBits b)).drop 32)

/-- The block whose bits before FP are the two halves (R158). -/
def desJoin (lr : Bits × Bits) : Bytes := fromBits 8 (permute desFP (lr.1 ++ lr.2))

theorem desWith_eq (rks : List Bits) (b : Bytes) : desWith rks b = desJoin (desRounds rks (desHalves b)).swap := rfl

theorem desHalves_length (b : Bytes) : (desHalves b).1.length = 32 ∧ (desHalves b).2.length = 32 := by
  simp [desHalves, desIP]

theorem desHalves_desJoin {lr : Bits × Bits} (hl : lr.1.length = 32) (hr : lr.2.length = 32) :
    desHalves (desJoin lr) = lr := by
  rw [desHalves, desJoin, toBits_fromBits (permute_length ..), desIP_desFP (by simp [hl, hr]), List.take_left' hl,
    List.drop_left' hl]

theorem desJoin_desHalves {b : Bytes} (hb : b.length = 8) : desJoin (desHalves b) = b := by
  rw [desJoin, desHalves, List.take_append_drop, desFP_desIP (by rw [toBits_length, hb]), ← hb, fromBits_toBits]

/-- DES with the round keys in reverse order undoes DES. -/
theorem desWith_reverse (rks : List Bits) {b : Bytes} (hb : b.length = 8) :
    desWith rks.reverse (desWith rks b) = b := by
  obtain ⟨hl, hr⟩ := desHalves_length b
  obtain ⟨hl', hr'⟩ := desRounds_length rks hl hr
  rw [desWith_eq, desWith_eq, desHalves_desJoin hr' hl', desRounds_reverse rks hl hr, Prod.swap_swap,
    desJoin_desHalves hb]

/-- `DES_D` undoes `DES_E` (42_tdes R160). -/
theorem desD_desE (k : Bytes) {b : Bytes} (hb : b.length = 8) : desD k (desE k b) = b := desWith_reverse _ hb

/-- `DES_E` undoes `DES_D` (42_tdes R160). -/
theorem desE_desD (k : Bytes) {b : Bytes} (hb : b.length = 8) : desE k (desD k b) = b := by
  have h := desWith_reverse (desKeys k).reverse hb
  rwa [List.reverse_reverse] at h

@[simp] theorem desE_length (k b : Bytes) : (desE k b).length = 8 := desWith_length ..

@[simp] theorem desD_length (k b : Bytes) : (desD k b).length = 8 := desWith_length ..

@[simp] theorem tdesE_length (k b : Bytes) : (tdesE k b).length = 8 := desE_length ..

@[simp] theorem tdesD_length (k b : Bytes) : (tdesD k b).length = 8 := desD_length ..

/-- `TDES_D` undoes `TDES_E`, the three parts in reverse order (42_tdes R146, R160). -/
theorem tdesD_tdesE (k : Bytes) {b : Bytes} (hb : b.length = 8) : tdesD k (tdesE k b) = b := by
  rw [tdesD, tdesE, desD_desE _ (desD_length ..), desE_desD _ (desE_length ..), desD_desE _ hb]

end Sys2Proof.Machine
end

section
/-!
PROOFS. The cipher operations with the units' own primitives: a result as long as its range, the empty range, results
that depend on the operands only, and the round trip of both units.
-/

namespace Sys2Proof.Machine

/-! ### The two units' records (40_cipher_common R90) -/

/-- Both primitives of a record give blocks, on keys of `KL` bytes and blocks of `B` bytes. -/
structure Cipher.GivesBlocks (C : Cipher) : Prop where
  block_pos : 0 < C.block
  enc_length : ∀ {k b : Bytes}, k.length = C.keyLen → b.length = C.block → (C.enc k b).length = C.block
  dec_length : ∀ {k b : Bytes}, k.length = C.keyLen → b.length = C.block → (C.dec k b).length = C.block

theorem aesCipher_enc : aesCipher.enc = aes128E := by rw [aesCipher]

theorem aesCipher_dec : aesCipher.dec = aes128D := by rw [aesCipher]

theorem aesCipher_givesBlocks : aesCipher.GivesBlocks where
  block_pos := by decide
  enc_length {k b} hk _ := by rw [aesCipher_enc]; exact aes128E_length hk b
  dec_length {k b} hk _ := by rw [aesCipher_dec]; exact aes128D_length hk b

theorem tdesCipher_givesBlocks : tdesCipher.GivesBlocks where
  block_pos := by decide
  enc_length _ _ := tdesE_length ..
  dec_length _ _ := tdesD_length ..

/-- The recurrence gives as many bytes as it is given (40_cipher_common R99). -/
theorem cbcRun_length {C : Cipher} (hC : C.GivesBlocks) (dir : Dir) {iv k x : Bytes} (hk : k.length = C.keyLen)
    (hiv : iv.length = C.block) (hx : x.length % C.block = 0) : (cbcRun C dir iv k x).1.length = x.length := by
  obtain ⟨m, hm⟩ := Nat.dvd_of_mod_eq_zero hx
  rw [Nat.mul_comm] at hm
  rw [hm]
  cases dir with
  | encrypt =>
    obtain ⟨hlen, -⟩ := cbcEncryptionRecurrence C iv k x m hC.block_pos hiv hm fun _ hb => hC.enc_length hk hb
    exact hlen
  | decrypt =>
    obtain ⟨hlen, -⟩ := cbcDecryptionRecurrence C iv k x m hC.block_pos hiv hm fun _ hb => hC.dec_length hk hb
    exact hlen

/-- Each of the eight cipher operations is one call of the shared step, with a record that gives blocks, on the
operation's range (41_aes R110 to R112; 42_tdes R140 to R144). -/
theorem exec_eq_cipherOp {i : Instr} (hi : i.isCipher = true) :
    ∃ C dir iv key msg, C.GivesBlocks ∧ ∀ s, exec i s = cipherOp C dir iv key msg (rangeOf i) s := by
  cases i with
  | aesEnc iv key msg => exact ⟨_, .encrypt, iv, key, msg, aesCipher_givesBlocks, fun _ => rfl⟩
  | aesDec iv key msg | aesDecR iv key msg offset length =>
    exact ⟨_, .decrypt, iv, key, msg, aesCipher_givesBlocks, fun _ => rfl⟩
  | tdesEnc iv key msg => exact ⟨_, .encrypt, iv, key, msg, tdesCipher_givesBlocks, fun _ => rfl⟩
  | tdesDec iv key msg | tdesDecR iv key msg offset length =>
    exact ⟨_, .decrypt, iv, key, msg, tdesCipher_givesBlocks, fun _ => rfl⟩
  | tdesDecZ key msg | tdesDecZR key msg offset length =>
    exact ⟨_, .decrypt, zeros tdesCipher.block, key, msg, tdesCipher_givesBlocks, fun _ => rfl⟩
  | sendCmd _ _ _ | sendCmdR _ _ _ _ _ | sendChain _ _ | sendChainR _ _ _ _ | sendApduChain _ =>
    simp [Instr.isCipher] at hi

theorem Cause.code_ne_zero (c : Cause) : c.code ≠ 0x00#8 := by cases c <;> decide

/-- Settles O19: an error has another code, and where the checks pass the range is whole blocks of the message. -/
theorem cipherResultLength : Obligations.CipherResultLength := by
  unfold Obligations.CipherResultLength
  intro i s t hi hexec hok
  obtain ⟨C, dir, iv, key, msg, hC, hop⟩ := exec_eq_cipherOp hi
  rw [hop, cipherOp_eq] at hexec
  cases h : cipherError C iv key msg (rangeOf i) with
  | some e =>
    simp only [h] at hexec
    cases hexec
    exact absurd hok e.cause.code_ne_zero
  | none =>
    simp only [h] at hexec
    cases hexec
    obtain ⟨hkey, hiv, hrange, hblocks⟩ := cipherError_eq_none.mp h
    have hlen : (slice msg (rangeOf i).off (rangeOf i).len).length = (rangeOf i).len := by
      rw [slice_length]; omega
    rw [finish_res, cbcRun_length hC dir hkey hiv (by rw [hlen, hblocks]), hlen]

/-! ### The empty range (40_cipher_common R96) -/

theorem cbcRun_nil (C : Cipher) (dir : Dir) (iv k : Bytes) : (cbcRun C dir iv k []).1 = [] := by
  rw [cbcRun, List.length_nil, Nat.zero_div, cbcLoop]

/-- The shared step on an empty range that starts anywhere up to the end of the buffer. -/
theorem cipherOp_empty {C : Cipher} {iv key msg : Bytes} {o : Nat} (hkey : key.length = C.keyLen)
    (hiv : iv.length = C.block) (ho : o ≤ msg.length) (dir : Dir) (s : State) :
    cipherOp C dir iv key msg ⟨o, 0⟩ s = .next (complete ⟨0x00#8, 0, 0, []⟩ s) := by
  have hchecks : cipherError C iv key msg ⟨o, 0⟩ = none :=
    cipherError_eq_none.mpr ⟨hkey, hiv, ho, Nat.zero_mod _⟩
  have hslice : slice msg o 0 = [] := List.take_zero
  simp only [cipherOp_eq, hchecks, hslice, cbcRun_nil, finish_eq_complete]

/-- Settles O20: the empty message is the empty range from 0, and the IV of a Z form is a good one. -/
theorem emptyRangeSucceeds : Obligations.EmptyRangeSucceeds := by
  unfold Obligations.EmptyRangeSucceeds
  intro iv key msg o s ho
  refine ⟨fun hkey hiv => ?_, fun hkey hiv => ?_, fun hkey => ?_⟩
  · have hop {m : Bytes} {a : Nat} (ha : a ≤ m.length) (dir : Dir) :=
      cipherOp_empty (C := aesCipher) hkey hiv ha dir s
    simp only [List.forall_mem_cons]
    exact ⟨hop le_rfl .encrypt, hop le_rfl .decrypt, hop ho .decrypt, by simp⟩
  · have hop {m : Bytes} {a : Nat} (ha : a ≤ m.length) (dir : Dir) :=
      cipherOp_empty (C := tdesCipher) hkey hiv ha dir s
    simp only [List.forall_mem_cons]
    exact ⟨hop le_rfl .encrypt, hop le_rfl .decrypt, hop ho .decrypt, by simp⟩
  · have hop {m : Bytes} {a : Nat} (ha : a ≤ m.length) :=
      cipherOp_empty (C := tdesCipher) hkey (zeros_length _) ha .decrypt s
    simp only [List.forall_mem_cons]
    exact ⟨hop le_rfl, hop ho, by simp⟩

/-- Settles O23: the operation completes in every state with the one result its operands fix. -/
theorem cipherResultDependsOnOperandsOnly : Obligations.CipherResultDependsOnOperandsOnly := by
  unfold Obligations.CipherResultDependsOnOperandsOnly
  intro i s s' hi
  obtain ⟨r, -, -, hcompletes⟩ := exec_cipher_completes hi
  exact ⟨r, hcompletes s, hcompletes s'⟩

/-- Settles O27: the general law, and both units' primitives are inverse on blocks. -/
theorem cbcRoundTrip : Obligations.CbcRoundTrip := by
  unfold Obligations.CbcRoundTrip
  refine ⟨fun C iv k x => cbcDec_cbcEnc, fun iv k x hiv hk hx => ?_, fun iv k x hiv _ hx => ?_⟩
  · refine cbcDec_cbcEnc aesCipher_givesBlocks.block_pos hiv hx
      (fun _ hb => aesCipher_givesBlocks.enc_length hk hb) fun _ hb => ?_
    rw [aesCipher_enc, aesCipher_dec]
    exact aes128D_aes128E hk hb
  · exact cbcDec_cbcEnc tdesCipher_givesBlocks.block_pos hiv hx
      (fun _ _ => tdesE_length ..) fun _ hb => tdesD_tdesE k hb

end Sys2Proof.Machine
end

section
/-!
PROOFS. The parts of the default AES-128 primitive, as the spec writes them: the field product, the S-box, the rows and
the columns of a block.
-/

namespace Sys2Proof.Machine

/-! ### The field (41_aes R114) -/

theorem gmulStep_eq_xor (k a acc : Byte) (i : Nat) :
    gmulStep k a acc i = acc ^^^ (if k.getLsbD i then xtimes i a else 0) := by
  unfold gmulStep
  split
  · rfl
  · exact (BitVec.xor_zero ..).symm

/-- The product as a sum over the set bits of its second factor (R114). -/
theorem gmul_eq_sum (a b : Byte) : gmul a b =
    (if b.getLsbD 0 then a else 0) ^^^ (if b.getLsbD 1 then xtime a else 0) ^^^
    (if b.getLsbD 2 then xtime (xtime a) else 0) ^^^ (if b.getLsbD 3 then xtime (xtime (xtime a)) else 0) ^^^
    (if b.getLsbD 4 then xtimes 4 a else 0) ^^^ (if b.getLsbD 5 then xtimes 5 a else 0) ^^^
    (if b.getLsbD 6 then xtimes 6 a else 0) ^^^ (if b.getLsbD 7 then xtimes 7 a else 0) := by
  have hbits : List.range 8 = [0, 1, 2, 3, 4, 5, 6, 7] := rfl
  simp only [gmul_eq_foldl, hbits, List.foldl_cons, List.foldl_nil, gmulStep_eq_xor, BitVec.zero_xor]
  rfl

/-- The 254th power is the inverse of every non-zero byte (R114). -/
theorem gmul_ginv : ∀ a : Byte, a ≠ 0 → gmul a (ginv a) = 1#8 := by decide +kernel

/-- Settles O29: the product is a sum over the set bits, and the inverse is checked at each of the 255 bytes. -/
theorem fieldArithmetic : Obligations.FieldArithmetic := by
  unfold Obligations.FieldArithmetic
  exact ⟨xtime_eq, gmul_eq_sum, by decide, by decide, by decide, by decide, gmul_ginv, by decide⟩

/-! ### The S-box (41_aes R115, R116) -/

/-- The table in use is the one R115's formula generates. -/
theorem sbox_eq_sboxFormula : ∀ a : Byte, sbox a = sboxFormula a := by decide +kernel

/-- Settles O30: the table agrees with the formula, which the statement writes out, at each of the 256 bytes. -/
theorem sboxTablesAreTheFormula : Obligations.SboxTablesAreTheFormula := by
  unfold Obligations.SboxTablesAreTheFormula
  exact ⟨sbox_eq_sboxFormula, invSbox_sbox, by decide, by decide, by decide⟩

/-! ### Rows (41_aes R113, R118, R123) -/

/-- Byte `r + 4c` of a block is the one at row `r`, column `c` (R113). -/
theorem getElem?_eq_stateAt {s : Bytes} (hs : s.length = 16) {r c : Nat} (hr : r < 4) (hc : c < 4) :
    s[r + 4 * c]? = some (stateAt s r c) := by
  have hlt : r + 4 * c < s.length := by omega
  rw [stateAt, List.getD_eq_getElem _ _ hlt, List.getElem?_eq_getElem hlt]

theorem stateAt_shiftRows (s : Bytes) {r c : Nat} (hr : r < 4) (hc : c < 4) :
    stateAt (shiftRows s) r c = stateAt s r ((c + r) % 4) := stateAt_stateOf _ hr hc

theorem stateAt_invShiftRows (s : Bytes) {r c : Nat} (hr : r < 4) (hc : c < 4) :
    stateAt (invShiftRows s) r c = stateAt s r ((c + 4 - r) % 4) := stateAt_stateOf _ hr hc

/-- Settles O31: block bytes are read by row and column, and the two column offsets cancel modulo 4. -/
theorem rowShifts : Obligations.RowShifts := by
  unfold Obligations.RowShifts
  intro s hs
  refine ⟨shiftRows_length s, invShiftRows_length s, fun r c hr hc => ?_⟩
  have hcol : (c + r) % 4 < 4 := Nat.mod_lt _ (by decide)
  have hback : ((c + r) % 4 + 4 - r) % 4 = c := by omega
  constructor
  · rw [getElem?_eq_stateAt (shiftRows_length s) hr hc, stateAt_shiftRows s hr hc, getElem?_eq_stateAt hs hr hcol]
  · rw [getElem?_eq_stateAt (invShiftRows_length s) hr hcol, stateAt_invShiftRows s hr hcol, hback,
      getElem?_eq_stateAt hs hr hc]

/-! ### Columns (41_aes R119, R123) -/

/-- A byte of a column times a circulant matrix: the coefficients of the first row, met from row `r` downwards. -/
theorem stateAt_mixWith (k0 k1 k2 k3 : Byte) (s : Bytes) {r c : Nat} (hr : r < 4) (hc : c < 4) :
    stateAt (mixWith k0 k1 k2 k3 s) r c =
      gmul (stateAt s r c) k0 ^^^ gmul (stateAt s ((r + 1) % 4) c) k1 ^^^
        gmul (stateAt s ((r + 2) % 4) c) k2 ^^^ gmul (stateAt s ((r + 3) % 4) c) k3 := stateAt_stateOf _ hr hc

/-- Settles O32: each equation is the circulant product at its row, its terms put in the order of the rows; row 0 of
`InvMixColumns` has them so. -/
theorem columnMixes : Obligations.ColumnMixes := by
  unfold Obligations.ColumnMixes
  intro s c _ hc
  simp only [mixColumns, invMixColumns, stateAt_mixWith, hc, Nat.reduceLT, Nat.reduceAdd, Nat.reduceMod, gmul_one,
    gmul_two, gmul_three]
  refine ⟨?_, ?_, ?_, ?_, trivial, ?_, ?_, ?_⟩ <;> ac_rfl

end Sys2Proof.Machine
end

section
/-!
PROOFS. The AES key expansion: a word, once appended, stays, so each word of the result is the one its step appends.
-/

namespace Sys2Proof.Machine

/-! ### Appending words (41_aes R121) -/

theorem foldl_keyExtend_length (is : List Nat) (w : List Bytes) :
    (is.foldl keyExtend w).length = w.length + is.length := by
  induction is generalizing w with
  | nil => rfl
  | cons i is ih =>
    rw [List.foldl_cons, ih, keyExtend, List.length_append, List.length_singleton, List.length_cons]
    omega

/-- Later steps keep the words there are. -/
theorem prefix_foldl_keyExtend (is : List Nat) (w : List Bytes) : w <+: is.foldl keyExtend w := by
  induction is generalizing w with
  | nil => exact List.prefix_rfl
  | cons i is ih => exact (List.prefix_append ..).trans (ih _)

theorem keyWords_length (k : Bytes) : (keyWords k).length = 44 := by
  rw [keyWords_eq_foldl, foldl_keyExtend_length, List.length_map, List.length_range, List.length_range']

/-- The first four words are the key (R121). -/
theorem keyWords_getElem?_of_lt_four (k : Bytes) {i : Nat} (hi : i < 4) :
    (keyWords k)[i]? = some (slice k (4 * i) 4) := by
  have hstart := List.prefix_iff_getElem?.mp
    (prefix_foldl_keyExtend (List.range' 4 40) ((List.range 4).map fun i => slice k (4 * i) 4))
  rw [keyWords_eq_foldl, hstart i (by simpa using hi), List.getElem_map, List.getElem_range]

/-- The result begins with what the step of word `i` makes of the `i` words before it. -/
theorem keyExtend_prefix_keyWords (k : Bytes) {i : Nat} (h4 : 4 ≤ i) (h44 : i < 44) :
    ∃ w, w.length = i ∧ keyExtend w i <+: keyWords k := by
  have hsplit : List.range' 4 40 = List.range' 4 (i - 4) ++ i :: List.range' (i + 1) (43 - i) := by
    rw [← List.range'_succ, show i = 4 + (i - 4) by omega, Nat.add_sub_cancel_left, List.range'_append_1]
    congr 1
    omega
  refine ⟨(List.range' 4 (i - 4)).foldl keyExtend ((List.range 4).map fun j => slice k (4 * j) 4), ?_, ?_⟩
  · rw [foldl_keyExtend_length, List.length_map, List.length_range, List.length_range']
    omega
  · rw [keyWords_eq_foldl, hsplit, List.foldl_append, List.foldl_cons]
    exact prefix_foldl_keyExtend ..

/-- The recurrence of the key expansion (R121). -/
theorem keyWords_recurrence (k : Bytes) {i : Nat} (h4 : 4 ≤ i) (h44 : i < 44) :
    ∃ w4 w1, (keyWords k)[i - 4]? = some w4 ∧ (keyWords k)[i - 1]? = some w1 ∧
      (keyWords k)[i]? = some (xorBytes w4 (keyTemp i w1)) := by
  obtain ⟨w, hw, t, ht⟩ := keyExtend_prefix_keyWords k h4 h44
  rw [keyExtend, List.append_assoc] at ht
  have hbefore (j : Nat) (hj : j < i) : (keyWords k)[j]? = some (w.getD j []) := by
    have hjw : j < w.length := hw.symm ▸ hj
    rw [← ht, List.getElem?_append_left hjw, List.getElem?_eq_getElem hjw, List.getD_eq_getElem _ _ hjw]
  refine ⟨_, _, hbefore (i - 4) (by omega), hbefore (i - 1) (by omega), ?_⟩
  rw [← ht, List.getElem?_append_right hw.le, hw, Nat.sub_self]
  rfl

/-- A round key is four words joined (R121). -/
theorem roundKey_eq_append {w : List Bytes} {r : Nat} (h : 4 * r + 3 < w.length) :
    roundKey w r = w[4 * r] ++ w[4 * r + 1] ++ w[4 * r + 2] ++ w[4 * r + 3] := by
  rw [roundKey, List.drop_eq_getElem_cons (by omega), List.drop_eq_getElem_cons (by omega),
    List.drop_eq_getElem_cons (by omega), List.drop_eq_getElem_cons h]
  simp only [List.take_succ_cons, List.take_zero, List.flatten_cons, List.flatten_nil, List.append_nil,
    List.append_assoc]

/-- Settles O33: the length, the words and the round keys, each by its lemma; the example is evaluated. -/
theorem aesKeyExpansion : Obligations.AesKeyExpansion := by
  unfold Obligations.AesKeyExpansion
  refine ⟨fun k _ => ⟨keyWords_length k, fun i => keyWords_getElem?_of_lt_four k, fun i => keyWords_recurrence k,
    fun r hr => ?_⟩, ?_⟩
  · have hlen : 4 * r + 3 < (keyWords k).length := by rw [keyWords_length]; omega
    exact ⟨_, _, _, _, List.getElem?_eq_getElem _, List.getElem?_eq_getElem _, List.getElem?_eq_getElem _,
      List.getElem?_eq_getElem hlen, roundKey_eq_append hlen⟩
  · rintro k rfl
    decide +kernel

end Sys2Proof.Machine
end

section
/-!
PROOFS. AES-128 encryption undoes decryption: each step of a round also undoes its step of the inverse round, for the
columns because the two matrices commute.
-/

namespace Sys2Proof.Machine

/-! ### The product commutes with linear maps (41_aes R114) -/

/-- A map that respects sums and doubling moves into the first factor of a product. -/
theorem map_gmul {F : Byte → Byte} (hxor : ∀ a b, F (a ^^^ b) = F a ^^^ F b) (hxtime : ∀ a, F (xtime a) = xtime (F a))
    (a k : Byte) : F (gmul a k) = gmul (F a) k := by
  have hzero : F 0#8 = 0#8 := by simpa using hxor 0#8 0#8
  have hxtimes (i : Nat) : F (xtimes i a) = xtimes i (F a) := by
    induction i with
    | zero => rfl
    | succ i ih => rw [xtimes, hxtime, ih, xtimes]
  have hstep (acc : Byte) (i : Nat) : gmulStep k (F a) (F acc) i = F (gmulStep k a acc i) := by
    unfold gmulStep
    split
    · rw [hxor, hxtimes]
    · rfl
  rw [gmul_eq_foldl, gmul_eq_foldl, ← List.foldl_hom F hstep, hzero]

theorem gmul_xtime (a k : Byte) : gmul (xtime a) k = xtime (gmul a k) :=
  (map_gmul xtime_xor (fun _ => rfl) a k).symm

theorem gmul_right_comm (a j k : Byte) : gmul (gmul a j) k = gmul (gmul a k) j :=
  map_gmul (F := (gmul · k)) (fun a b => gmul_xor a b k) (gmul_xtime · k) a j

/-! ### The steps of an inverse round, undone (41_aes R117 to R123) -/

/-- The table undoes the inverse table (R116). -/
theorem sbox_invSbox : ∀ a : Byte, sbox (invSbox a) = a := by decide

theorem subBytes_invSubBytes (s : Bytes) : subBytes (invSubBytes s) = s := by
  simp [invSubBytes, subBytes, Function.comp_def, sbox_invSbox]

theorem shiftRows_invShiftRows {s : Bytes} (hs : s.length = 16) : shiftRows (invShiftRows s) = s := by
  refine eq_of_stateAt_eq (shiftRows_length _) hs fun r c hr hc => ?_
  rw [stateAt_shiftRows _ hr hc, stateAt_invShiftRows _ hr (Nat.mod_lt _ (by decide)),
    show ((c + r) % 4 + 4 - r) % 4 = c by omega]

@[simp] theorem mixWith_length (k0 k1 k2 k3 : Byte) (s : Bytes) : (mixWith k0 k1 k2 k3 s).length = 16 :=
  stateOf_length _

/-- Circulant matrices commute. -/
theorem mixWith_comm (j0 j1 j2 j3 k0 k1 k2 k3 : Byte) (s : Bytes) :
    mixWith j0 j1 j2 j3 (mixWith k0 k1 k2 k3 s) = mixWith k0 k1 k2 k3 (mixWith j0 j1 j2 j3 s) := by
  refine eq_of_stateAt_eq (mixWith_length ..) (mixWith_length ..) fun r c hr hc => ?_
  have hrow (r' : Nat) : r' % 4 < 4 := Nat.mod_lt _ (by decide)
  simp only [stateAt_mixWith, hr, hc, hrow, Nat.mod_add_mod, Nat.add_assoc, Nat.reduceAdd, gmul_xor,
    gmul_right_comm _ k0, gmul_right_comm _ k1, gmul_right_comm _ k2, gmul_right_comm _ k3]
  ac_rfl

theorem mixColumns_invMixColumns {s : Bytes} (hs : s.length = 16) : mixColumns (invMixColumns s) = s := by
  rw [mixColumns, invMixColumns, mixWith_comm]
  exact invMixColumns_mixColumns hs

/-! ### The inverse cipher and the cipher (41_aes R122, R124) -/

/-- A round undoes the inverse round, both seen between the mixing and the substitution (R122, R124). -/
theorem aesRound_aesInvRound (s : Bytes) {rk : Bytes} (hrk : rk.length = 16) :
    aesRound (invSubBytes (invShiftRows (aesInvRound s rk))) rk = invSubBytes (invShiftRows s) := by
  have hlen : (invSubBytes (invShiftRows s)).length = 16 := by rw [invSubBytes_length, invShiftRows_length]
  have hadd : (addRoundKey (invSubBytes (invShiftRows s)) rk).length = 16 := by
    rw [addRoundKey, xorBytes_length, hlen, hrk, min_self]
  have hround : (aesInvRound s rk).length = 16 := invMixColumns_length _
  rw [aesRound, subBytes_invSubBytes, shiftRows_invShiftRows hround, aesInvRound, mixColumns_invMixColumns hadd]
  exact xorBytes_cancel _ _ (by rw [hlen, hrk])

/-- The rounds undo the inverse rounds in reverse order. -/
theorem aesRounds_aesInvRounds (rk : Nat → Bytes) (rs : List Nat) (hrk : ∀ r ∈ rs, (rk r).length = 16) (s : Bytes) :
    rs.foldl (fun s r => aesRound s (rk r))
      (invSubBytes (invShiftRows (rs.reverse.foldl (fun s r => aesInvRound s (rk r)) s))) =
        invSubBytes (invShiftRows s) := by
  induction rs with
  | nil => rfl
  | cons r rs ih =>
    rw [List.reverse_cons, List.foldl_append, List.foldl_cons (l := rs), List.foldl_cons, List.foldl_nil,
      aesRound_aesInvRound _ (hrk r List.mem_cons_self)]
    exact ih fun r' h => hrk r' (List.mem_cons_of_mem r h)

/-- AES-128 encryption undoes decryption (41_aes R125). -/
theorem aes128E_aes128D {k b : Bytes} (hk : k.length = 16) (hb : b.length = 16) : aes128E k (aes128D k b) = b := by
  have hkey (r : Nat) (hr : r ≤ 10) : (roundKey (keyWords k) r).length = 16 := roundKey_length hk hr
  have hstart : (addRoundKey b (roundKey (keyWords k) 10)).length = 16 := by simp [addRoundKey, hb, hkey]
  have hundo := aesRounds_aesInvRounds (roundKey (keyWords k)) (List.range' 1 9)
    (fun r hr => hkey r (by rw [List.mem_range'_1] at hr; omega)) (addRoundKey b (roundKey (keyWords k) 10))
  simp only [aes128D, aes128E]
  generalize (List.range' 1 9).reverse.foldl (fun s r => aesInvRound s (roundKey (keyWords k) r))
    (addRoundKey b (roundKey (keyWords k) 10)) = s at hundo ⊢
  have hlast : addRoundKey (addRoundKey (invSubBytes (invShiftRows s)) (roundKey (keyWords k) 0))
      (roundKey (keyWords k) 0) = invSubBytes (invShiftRows s) :=
    xorBytes_cancel _ _ (by rw [invSubBytes_length, invShiftRows_length, hkey 0 (by decide)])
  rw [hlast, hundo, subBytes_invSubBytes, shiftRows_invShiftRows hstart]
  exact xorBytes_cancel _ _ (by rw [hb, hkey 10 (by decide)])

/-! ### Keys of another size (40_cipher_common R92; 41_aes R125) -/

/-- The key size is the first check: a key of another size is refused whatever the other operands. -/
theorem cipherOp_wrongKeySize {C : Cipher} {key : Bytes} (h : key.length ≠ C.keyLen) (dir : Dir) (iv msg : Bytes)
    (rg : Range) (s : State) :
    cipherOp C dir iv key msg rg s = .next (complete ⟨0x11#8, C.keyLen, key.length, []⟩ s) := by
  have hchecks : cipherError C iv key msg rg = some ⟨.invalidKeySize, C.keyLen, key.length⟩ := if_pos h
  simp only [cipherOp_eq, hchecks, raise_eq_complete, Cause.code]

/-- Settles O34: the two inverse laws, and the key check of the shared step for each of the three operations. -/
theorem aesPrimitivesInverse : Obligations.AesPrimitivesInverse := by
  unfold Obligations.AesPrimitivesInverse
  refine ⟨fun k b hk hb => ⟨aes128D_aes128E hk hb, aes128E_aes128D hk hb, aes128E_length hk b, aes128D_length hk b⟩,
    fun iv K msg o n s hK => ?_⟩
  have hsize : K.length ≠ aesCipher.keyLen := by
    change K.length ≠ 16
    omega
  have hop (dir : Dir) (rg : Range) := cipherOp_wrongKeySize hsize dir iv msg rg s
  simp only [List.forall_mem_cons]
  exact ⟨hop .encrypt (wholeOf msg), hop .decrypt (wholeOf msg), hop .decrypt ⟨o, n⟩, by simp⟩

end Sys2Proof.Machine
end

section
/-!
PROOFS. Triple DES over its key parts: the inverse laws of TDEA, keys that differ in parity bits only, one-key and
two-key use, and the worked DES example.
-/

namespace Sys2Proof.Machine

/-! ### DES and TDEA are inverse (42_tdes R146, R160) -/

/-- `TDES_E` undoes `TDES_D` (42_tdes R160). -/
theorem tdesE_tdesD (k : Bytes) {b : Bytes} (hb : b.length = 8) : tdesE k (tdesD k b) = b := by
  rw [tdesE, tdesD, desE_desD _ (desE_length ..), desD_desE _ (desD_length ..), desE_desD _ hb]

/-- The second known answer of R160. -/
theorem desE_knownAnswer : desE [0x01#8, 0x23#8, 0x45#8, 0x67#8, 0x89#8, 0xAB#8, 0xCD#8, 0xEF#8]
    [0x4E#8, 0x6F#8, 0x77#8, 0x20#8, 0x69#8, 0x73#8, 0x20#8, 0x74#8] =
      [0x3F#8, 0xA4#8, 0x0E#8, 0x8A#8, 0x98#8, 0x4D#8, 0x48#8, 0x15#8] := by decide +kernel

/-- Settles O35: the inverse laws of DES, those of TDEA part by part, and the known answer. -/
theorem desPrimitivesInverse : Obligations.DesPrimitivesInverse := by
  unfold Obligations.DesPrimitivesInverse
  exact ⟨fun K b _ hb => ⟨desD_desE K hb, desE_desD K hb, desE_length K b, desD_length K b⟩,
    fun key b _ hb => ⟨tdesD_tdesE key hb, tdesE_tdesD key hb, tdesE_length key b, tdesD_length key b⟩,
    desE_knownAnswer⟩

/-! ### Parity bits (42_tdes R147) -/

/-- The first `n` bytes of two keys differ at most in their least significant bits, the parity bits (R147). -/
def EqualButParity (n : Nat) (k k' : Bytes) : Prop := ∀ a, a < n → (k.getD a 0#8) >>> 1 = (k'.getD a 0#8) >>> 1

theorem slice_getD {o m a : Nat} (ha : a < m) (k : Bytes) : (slice k o m).getD a 0#8 = k.getD (o + a) 0#8 := by
  simp [slice, List.getD_eq_getElem?_getD, List.getElem?_take_of_lt ha]

theorem EqualButParity.slice {n o m : Nat} {k k' : Bytes} (h : EqualButParity n k k') (hm : o + m ≤ n) :
    EqualButParity m (slice k o m) (slice k' o m) := by
  intro a ha
  rw [slice_getD ha, slice_getD ha]
  exact h (o + a) (by omega)

/-- The parity bit of a byte is its bit 0, so the others agree. -/
theorem EqualButParity.getLsbD {n a j : Nat} {k k' : Bytes} (h : EqualButParity n k k') (ha : a < n) :
    (k.getD a 0#8).getLsbD (1 + j) = (k'.getD a 0#8).getLsbD (1 + j) := by
  rw [← BitVec.getLsbD_ushiftRight, ← BitVec.getLsbD_ushiftRight, h a ha]

/-- Bit `8a + j`, counted from 0, is bit `j` of byte `a`, most significant first (R149). -/
theorem toBits_getD (b : Bytes) (i : Nat) : (toBits b).getD i false = (b.getD (i / 8) 0#8).getLsbD (7 - i % 8) := by
  induction b generalizing i with
  | nil => simp [toBits]
  | cons x b ih =>
    have hcons : toBits (x :: b) = byteBits x ++ toBits b := List.flatMap_cons
    rw [hcons]
    rcases Nat.lt_or_ge i 8 with hi | hi
    · rw [List.getD_append _ _ _ _ (by rw [byteBits_length]; exact hi), Nat.div_eq_of_lt hi, Nat.mod_eq_of_lt hi]
      simp [byteBits, List.getD_eq_getElem?_getD, hi]
    · obtain ⟨j, rfl⟩ := Nat.exists_eq_add_of_le' hi
      rw [List.getD_append_right _ _ _ _ (by rw [byteBits_length]; exact hi), byteBits_length, Nat.add_sub_cancel, ih,
        Nat.add_div_right j (by decide), Nat.add_mod_right, List.getD_cons_succ]

/-- `PC1` selects bits of the eight bytes of the key, and never a byte's last bit (R147, R156). -/
theorem desPC1_avoids_parity : ∀ i ∈ desPC1, (i - 1) / 8 < 8 ∧ (i - 1) % 8 < 7 := by decide

/-- The key schedule reads no parity bit (R147). -/
theorem EqualButParity.desKeys_eq {k k' : Bytes} (h : EqualButParity 8 k k') : desKeys k = desKeys k' := by
  have hselect : permute desPC1 (toBits k) = permute desPC1 (toBits k') := by
    refine List.map_congr_left fun i hi => ?_
    obtain ⟨hbyte, hbit⟩ := desPC1_avoids_parity i hi
    rw [toBits_getD, toBits_getD, show 7 - (i - 1) % 8 = 1 + (6 - (i - 1) % 8) by omega, h.getLsbD hbyte]
  rw [desKeys, desKeys, hselect]

theorem EqualButParity.desE_eq {k k' : Bytes} (h : EqualButParity 8 k k') (b : Bytes) : desE k b = desE k' b := by
  rw [desE, desE, h.desKeys_eq]

theorem EqualButParity.desD_eq {k k' : Bytes} (h : EqualButParity 8 k k') (b : Bytes) : desD k b = desD k' b := by
  rw [desD, desD, h.desKeys_eq]

section
variable {key key' : Bytes} (h : EqualButParity 24 key key') (b : Bytes)
include h

theorem EqualButParity.keyParts :
    EqualButParity 8 (keyPart1 key) (keyPart1 key') ∧ EqualButParity 8 (keyPart2 key) (keyPart2 key') ∧
      EqualButParity 8 (keyPart3 key) (keyPart3 key') :=
  ⟨h.slice (by decide), h.slice (by decide), h.slice (by decide)⟩

theorem EqualButParity.tdesE_eq : tdesE key b = tdesE key' b := by
  obtain ⟨h1, h2, h3⟩ := h.keyParts
  rw [tdesE, tdesE, h1.desE_eq, h2.desD_eq, h3.desE_eq]

theorem EqualButParity.tdesD_eq : tdesD key b = tdesD key' b := by
  obtain ⟨h1, h2, h3⟩ := h.keyParts
  rw [tdesD, tdesD, h3.desD_eq, h2.desE_eq, h1.desD_eq]

end

/-! ### No key value is refused (40_cipher_common R92; 42_tdes R147) -/

/-- The checks read the length of the key only. -/
theorem cipherError_congr_key {key key' : Bytes} (hlen : key.length = key'.length) (C : Cipher) (iv msg : Bytes)
    (rg : Range) : cipherError C iv key msg rg = cipherError C iv key' msg rg := by
  simp only [cipherError, hlen]

/-- A key of the right size is never what the checks complain of. -/
theorem cipherError_cause_ne_invalidKeySize {C : Cipher} {iv key msg : Bytes} {rg : Range} {e : OpError}
    (hkey : key.length = C.keyLen) (h : cipherError C iv key msg rg = some e) : e.cause ≠ .invalidKeySize := by
  rw [cipherError, if_neg (not_not_intro hkey)] at h
  repeat' split at h
  all_goals cases h
  all_goals exact Cause.noConfusion

/-- Settles O36: no part of the key schedule reads a parity bit, and the checks read the size of the key only. -/
theorem parityBitsIgnored : Obligations.ParityBitsIgnored := by
  unfold Obligations.ParityBitsIgnored
  refine ⟨fun key key' b _ _ hparity => ?_, fun iv key msg rg hkey e he => ⟨?_, fun key' hkey' => ?_⟩⟩
  · have h : EqualButParity 24 key key' := hparity
    exact ⟨h.tdesE_eq b, h.tdesD_eq b⟩
  · exact cipherError_cause_ne_invalidKeySize hkey he
  · rw [cipherError_congr_key (hkey'.trans hkey.symm), he]

/-! ### One-key and two-key use (42_tdes R145, R148, R161) -/

section
variable {K1 K2 K3 : Bytes} (h1 : K1.length = 8) (h2 : K2.length = 8) (h3 : K3.length = 8)
include h1 h2 h3

/-- The parts of a key are the three keys it is put together from (R145). -/
theorem keyParts_append : keyPart1 (K1 ++ K2 ++ K3) = K1 ∧ keyPart2 (K1 ++ K2 ++ K3) = K2 ∧
    keyPart3 (K1 ++ K2 ++ K3) = K3 := by
  simp [keyPart1, keyPart2, keyPart3, slice, List.drop_append, h1, h2, List.take_of_length_le h3.le,
    List.drop_eq_nil_of_le (show K1.length ≤ 16 by omega)]

/-- `TDES_E` under three keys put together (R146). -/
theorem tdesE_append (b : Bytes) : tdesE (K1 ++ K2 ++ K3) b = desE K3 (desD K2 (desE K1 b)) := by
  obtain ⟨hpart1, hpart2, hpart3⟩ := keyParts_append h1 h2 h3
  rw [tdesE, hpart1, hpart2, hpart3]

/-- `TDES_D` under three keys put together (R146). -/
theorem tdesD_append (b : Bytes) : tdesD (K1 ++ K2 ++ K3) b = desD K1 (desE K2 (desD K3 b)) := by
  obtain ⟨hpart1, hpart2, hpart3⟩ := keyParts_append h1 h2 h3
  rw [tdesD, hpart1, hpart2, hpart3]

end

/-- Settles O37: with equal parts the first two of the three steps cancel, and a key of another size fails the first
check. -/
theorem oneKeyUseIsSingleDes : Obligations.OneKeyUseIsSingleDes := by
  unfold Obligations.OneKeyUseIsSingleDes
  refine ⟨fun K b hK hb => ⟨?_, ?_⟩, fun Ka Kb b ha hb => tdesE_append ha hb ha b, fun iv K msg o n s hK => ?_⟩
  · rw [tdesE_append hK hK hK, desD_desE K hb]
  · rw [tdesD_append hK hK hK, desE_desD K hb]
  · have hsize : K.length ≠ tdesCipher.keyLen := by
      change K.length ≠ 24
      omega
    have hop (dir : Dir) (iv : Bytes) (rg : Range) := cipherOp_wrongKeySize hsize dir iv msg rg s
    simp only [List.forall_mem_cons]
    exact ⟨hop .encrypt iv (wholeOf msg), hop .decrypt iv (wholeOf msg), hop .decrypt iv ⟨o, n⟩,
      hop .decrypt (zeros tdesCipher.block) (wholeOf msg), hop .decrypt (zeros tdesCipher.block) ⟨o, n⟩, by simp⟩

/-! ### The worked example (42_tdes R157 to R159; 95_test_vectors section 3.2) -/

/-- The key of the worked example. -/
def exampleKey : Bytes := [0x13#8, 0x34#8, 0x57#8, 0x79#8, 0x9B#8, 0xBC#8, 0xDF#8, 0xF1#8]

/-- The block of the worked example. -/
def exampleBlock : Bytes := [0x01#8, 0x23#8, 0x45#8, 0x67#8, 0x89#8, 0xAB#8, 0xCD#8, 0xEF#8]

/-- The encrypted block of the worked example. -/
def exampleResult : Bytes := [0x85#8, 0xE8#8, 0x13#8, 0x54#8, 0x0F#8, 0x0A#8, 0xB4#8, 0x05#8]

/-- `L0` and `R0` of the worked example. -/
def exampleStart : Bits × Bits := (natToBits 32 0xCC00CCFF, natToBits 32 0xF0AAF0AA)

/-- `L16` and `R16` of the worked example. -/
def exampleEnd : Bits × Bits := (natToBits 32 0x43423234, natToBits 32 0x0A4CD995)

theorem permute_desIP_example : permute desIP (toBits exampleBlock) = natToBits 64 0xCC00CCFFF0AAF0AA := by
  decide +kernel

theorem desHalves_example : desHalves exampleBlock = exampleStart := by
  rw [desHalves, permute_desIP_example]
  decide +kernel

/-- `C0` and `D0` (R157). -/
theorem permute_desPC1_example :
    permute desPC1 (toBits exampleKey) = natToBits 28 0xF0CCAAF ++ natToBits 28 0x556678F := by
  decide +kernel

theorem desKeysFrom_length (ns : List Nat) (c d : Bits) : (desKeysFrom ns c d).length = ns.length := by
  induction ns generalizing c d with
  | nil => rfl
  | cons n ns ih => rw [desKeysFrom, List.length_cons, List.length_cons, ih]

/-- There are sixteen round keys, whatever the key (R157). -/
theorem desKeys_length (k : Bytes) : (desKeys k).length = 16 := desKeysFrom_length ..

theorem desKeys_example :
    (desKeys exampleKey)[0]? = some (natToBits 48 0x1B02EFFC7072) ∧
    (desKeys exampleKey)[1]? = some (natToBits 48 0x79AED9DBC9E5) ∧
    (desKeys exampleKey)[15]? = some (natToBits 48 0xCB3D8B0E17F5) := by
  rw [desKeys, permute_desPC1_example]
  decide +kernel

theorem desRounds_two_example : desRounds ((desKeys exampleKey).take 2) exampleStart =
    (natToBits 32 0xEF4A6544, natToBits 32 0xCC017709) := by decide +kernel

theorem desRounds_example : desRounds (desKeys exampleKey) exampleStart = exampleEnd := by decide +kernel

/-- The last step of the worked example: the halves swapped, then FP (R158). -/
theorem desJoin_example : desJoin exampleEnd.swap = exampleResult := by decide +kernel

theorem desE_example : desE exampleKey exampleBlock = exampleResult := by
  rw [desE, desWith_eq, desHalves_example, desRounds_example, desJoin_example]

/-- The block comes back by the inverse law, without another evaluation. -/
theorem desD_example : desD exampleKey exampleResult = exampleBlock := by
  rw [← desE_example, desD_desE exampleKey rfl]

/-- Settles O38: the example evaluated stage by stage, each value once. -/
theorem desWorkedExample : Obligations.DesWorkedExample := by
  unfold Obligations.DesWorkedExample
  obtain ⟨hfirst, hsecond, hlast⟩ := desKeys_example
  have hC : (permute desPC1 (toBits exampleKey)).take 28 = natToBits 28 0xF0CCAAF := by
    rw [permute_desPC1_example, List.take_left' (natToBits_length ..)]
  have hD : (permute desPC1 (toBits exampleKey)).drop 28 = natToBits 28 0x556678F := by
    rw [permute_desPC1_example, List.drop_left' (natToBits_length ..)]
  exact ⟨hC, hD, desKeys_length exampleKey, hfirst, hsecond, hlast, permute_desIP_example, desRounds_two_example,
    desRounds_example, desE_example, desD_example⟩

end Sys2Proof.Machine
end

section
/-!
PROOFS. What a response of the collaborator makes of a framer operation that exchanges a frame: the single exchange
ends on it, the chain loop goes on or ends, and a failed exchange or a short response ends either.
-/

namespace Sys2Proof.Machine

/-! ### The branch on a response (43_framer R181, R188, R195) -/

/-- Completion discards the framer working state, whatever it held (70_reset_and_hazards R254; 10_state R30). -/
theorem complete_set_framerWork (r : Result) (a g : Bytes) (n : Nat) (s : State) :
    complete r { s with acc := a, iter := n, txf := g } = complete r s := rfl

/-- A single exchange on the status word it expects (43_framer R181). -/
theorem singleReply_expected {e : BitVec 16} {h l : Byte} (he : e.toNat = 256 * h.toNat + l.toNat) (data : Bytes)
    (s : State) : singleReply e (data ++ [h, l]) s = complete ⟨0x00#8, 0, 0, data⟩ s := by
  have hsw : u16be h l = e := (u16be_eq_iff he).mpr ⟨rfl, rfl⟩
  simp only [singleReply, split_append, if_pos hsw, finish_eq_complete]

/-- A single exchange on any other status word (43_framer R181). -/
theorem singleReply_mismatch {e : BitVec 16} {h l : Byte} (he : e.toNat ≠ 256 * h.toNat + l.toNat) (data : Bytes)
    (s : State) : singleReply e (data ++ [h, l]) s =
      complete ⟨0x21#8, e.toNat, 256 * h.toNat + l.toNat, []⟩ s := by
  have hsw : u16be h l ≠ e := fun heq => he (by rw [← heq, u16be_toNat])
  simp only [singleReply, split_append, if_neg hsw, raise_eq_complete, u16be_toNat, Cause.code]

theorem singleReply_short {r : Bytes} (hr : r.length < 2) (e : BitVec 16) (s : State) :
    singleReply e r s = complete ⟨0x23#8, 2, r.length, []⟩ s := by
  simp only [singleReply, split_none.mpr hr, raise_eq_complete, Cause.code]

theorem chainReply_short {r : Bytes} (hr : r.length < 2) (s : State) :
    chainReply r s = complete ⟨0x23#8, 2, r.length, []⟩ s := by
  simp only [chainReply, split_none.mpr hr, raise_eq_complete, Cause.code]

/-- The chain loop's three-way branch, by the two bytes of the status word (43_framer R188, R195). -/
theorem chainReply_append (data : Bytes) (h l : Byte) (s : State) :
    chainReply (data ++ [h, l]) s =
      if h = 0x91#8 ∧ l = 0xAF#8 then { s with acc := s.acc ++ data, txf := contFrame s.cfg }
      else if h = 0x91#8 ∧ l = 0x00#8 then complete ⟨0x00#8, 0, 0, s.acc ++ data⟩ s
      else complete ⟨0x21#8, 0x9100, 256 * h.toNat + l.toNat, []⟩ s := by
  have hmore : u16be h l = Config.swMoreData ↔ h = 0x91#8 ∧ l = 0xAF#8 := u16be_eq_iff rfl
  have hdone : u16be h l = Config.swOperationOk ↔ h = 0x91#8 ∧ l = 0x00#8 := u16be_eq_iff rfl
  simp only [chainReply, split_append, chainStatus, hmore, hdone]
  by_cases h1 : h = 0x91#8 ∧ l = 0xAF#8
  · simp only [if_pos h1]
  · by_cases h2 : h = 0x91#8 ∧ l = 0x00#8
    · simp only [if_neg h1, if_pos h2, finish_eq_complete]
    · simp only [if_neg h1, if_neg h2, raise_eq_complete, u16be_toNat]
      rfl

/-! ### The exchange of an operation that gets a response -/

section
variable {f r : Bytes} {rest : List Answer} {s : State} (hanswers : s.link.answers = .ok r :: rest)
  (hlen : r.length ≤ s.cfg.frameMax)
include hanswers hlen

/-- The single step with `f` in `TXF` hands the response to the branch (43_framer R181). -/
theorem singleStep_ok (e : BitVec 16) : singleStep e { s with txf := f } =
    singleReply e r { s with txf := f, link := s.link.exchanged f rest } := by
  have hx : exchange f { s with txf := f } = (.ok r, { s with txf := f, link := s.link.exchanged f rest }) :=
    exchange_ok hanswers hlen
  simp only [singleStep, hx]

/-- A chain operation that sends `f` counts the response and hands it to the branch (43_framer R188). -/
theorem exec_chain_ok {i : Instr} (hi : i.isChain = true) (h : sends i s f) : exec i s = .next
    (chainReply r
      { s with acc := accBefore i s, iter := s.iter + 1, txf := f, link := s.link.exchanged f rest }) := by
  have hbound : s.iter ≠ s.cfg.chainMax := (exec_chain_sends hi h).1
  have hx : exchange f { s with acc := accBefore i s, txf := f } =
      (.ok r, { s with acc := accBefore i s, txf := f, link := s.link.exchanged f rest }) :=
    exchange_ok hanswers hlen
  rw [exec_chain_sends_eq hi h]
  simp only [chainStep, if_neg hbound, hx]

/-- A response of fewer than two bytes ends any framer operation (43_framer R187). -/
theorem exec_sends_short {i : Instr} (h : sends i s f) (hshort : r.length < 2) : exec i s =
    .next (complete ⟨0x23#8, 2, r.length, []⟩ { s with link := s.link.exchanged f rest }) := by
  obtain ⟨e, hexec⟩ | hchain := sends_cases h
  · rw [hexec, singleStep_ok hanswers hlen, singleReply_short hshort]
    rfl
  · rw [exec_chain_ok hanswers hlen hchain h, chainReply_short hshort]
    rfl

end

/-- Settles O45: a failed exchange and a response with no status word, whichever operation exchanges. -/
theorem exchangeFailureAndShortResponse : Obligations.ExchangeFailureAndShortResponse := by
  unfold Obligations.ExchangeFailureAndShortResponse
  intro i f rest s hsends
  refine ⟨fun reason hanswers => ?_, fun r hanswers hshort hlen => exec_sends_short hanswers hlen hsends hshort⟩
  rw [exec_sends_fail hsends (exchange_fail hanswers), raise_eq_complete]
  rfl

/-! ### The single exchange (43_framer R181, R182) -/

section
variable {data f : Bytes} {h l : Byte} {e : BitVec 16} {rest : List Answer} {s : State}
  (hanswers : s.link.answers = .ok (data ++ [h, l]) :: rest) (hlen : data.length + 2 ≤ s.cfg.frameMax)
include hanswers hlen

theorem singleStep_expected (he : e.toNat = 256 * h.toNat + l.toNat) : singleStep e { s with txf := f } =
    complete ⟨0x00#8, 0, 0, data⟩ { s with link := s.link.exchanged f rest } := by
  rw [singleStep_ok hanswers (by simpa using hlen), singleReply_expected he]
  rfl

theorem singleStep_mismatch (he : e.toNat ≠ 256 * h.toNat + l.toNat) : singleStep e { s with txf := f } =
    complete ⟨0x21#8, e.toNat, 256 * h.toNat + l.toNat, []⟩ { s with link := s.link.exchanged f rest } := by
  rw [singleStep_ok hanswers (by simpa using hlen), singleReply_mismatch he]
  rfl

end

/-- Settles O40: good operands let both operations send their frame, and the response has the expected word. -/
theorem singleExchangeCompletes : Obligations.SingleExchangeCompletes := by
  unfold Obligations.SingleExchangeCompletes
  intro msg data c h l e rest s hframer hanswers hlen he
  refine ⟨fun hlc => ?_, fun o n hrange hlc => ?_⟩
  · rw [execSendCmd_sends ⟨hframer, hlc, rfl⟩, singleStep_expected hanswers hlen he]
  · rw [execSendCmdR_sends ⟨hframer, hrange, hlc, rfl⟩, singleStep_expected hanswers hlen he]

/-- Settles O41: both operations run the single step, and the response has another word. -/
theorem singleExchangeMismatch : Obligations.SingleExchangeMismatch := by
  unfold Obligations.SingleExchangeMismatch
  intro msg data f o n c h l e rest s hanswers hlen he i hi hsends
  obtain rfl | rfl : i = .sendCmd msg c e ∨ i = .sendCmdR msg o n c e := by simpa using hi
  · rw [execSendCmd_sends hsends, singleStep_mismatch hanswers hlen he]
  · rw [execSendCmdR_sends hsends, singleStep_mismatch hanswers hlen he]

/-! ### A pass of the chain loop (43_framer R183 to R185, R188, R189) -/

theorem accBefore_eq {i : Instr} (hi : i.isChain = true) (s : State) :
    accBefore i s = if s.iter = 0 then [] else s.acc := by
  simp only [accBefore, hi, true_and]

/-- What the loop leaves after a response that ends 0x91AF: the data in `ACC`, the exchange counted, the continuation
frame next (43_framer R188). -/
def afterMoreData (acc f : Bytes) (rest : List Answer) (s : State) : State :=
  { s with acc := acc, iter := s.iter + 1, txf := contFrame s.cfg, link := s.link.exchanged f rest }

section
variable {i : Instr} {f data : Bytes} {h l : Byte} {rest : List Answer} {s : State} (hi : i.isChain = true)
  (hsends : sends i s f) (hlen : data.length + 2 ≤ s.cfg.frameMax)
include hi hsends hlen

/-- One pass on a response with a status word, where `accBefore` is what the passes before it accumulated. -/
theorem exec_chain_pass (hanswers : s.link.answers = .ok (data ++ [h, l]) :: rest) : exec i s = .next
    (if h = 0x91#8 ∧ l = 0xAF#8 then afterMoreData (accBefore i s ++ data) f rest s
     else if h = 0x91#8 ∧ l = 0x00#8 then
      complete ⟨0x00#8, 0, 0, accBefore i s ++ data⟩ { s with link := s.link.exchanged f rest }
     else complete ⟨0x21#8, 0x9100, 256 * h.toNat + l.toNat, []⟩ { s with link := s.link.exchanged f rest }) := by
  rw [exec_chain_ok hanswers (by simpa using hlen) hi hsends, chainReply_append]
  rfl

theorem exec_chain_moreData (hanswers : s.link.answers = .ok (data ++ [0x91#8, 0xAF#8]) :: rest) :
    exec i s = .next (afterMoreData (accBefore i s ++ data) f rest s) := by
  rw [exec_chain_pass hi hsends hlen hanswers, if_pos ⟨rfl, rfl⟩]

theorem exec_chain_complete (hanswers : s.link.answers = .ok (data ++ [0x91#8, 0x00#8]) :: rest) :
    exec i s = .next
      (complete ⟨0x00#8, 0, 0, accBefore i s ++ data⟩ { s with link := s.link.exchanged f rest }) := by
  rw [exec_chain_pass hi hsends hlen hanswers, if_neg (by decide), if_pos ⟨rfl, rfl⟩]

end

/-- Settles O43: the branch of one pass, with what was accumulated before it. -/
theorem chainPass : Obligations.ChainPass := by
  unfold Obligations.ChainPass
  intro i f data h l rest s hi hsends hanswers hlen
  rw [exec_chain_pass hi hsends hlen hanswers, accBefore_eq hi]
  rfl

/-- Settles O42: the first pass of each operation, whose frame its good operands fix. -/
theorem chainCompletesOnFirstResponse : Obligations.ChainCompletesOnFirstResponse := by
  unfold Obligations.ChainCompletesOnFirstResponse
  intro msg data c rest s hframer hfirst hmax hanswers hlen
  have hbound : s.iter ≠ s.cfg.chainMax := by omega
  have pass {i : Instr} {f : Bytes} (hi : i.isChain = true) (hsends : sends i s f) : exec i s =
      .next (complete ⟨0x00#8, 0, 0, data⟩ { s with link := s.link.exchanged f rest }) := by
    rw [exec_chain_complete hi hsends hlen hanswers, accBefore_eq hi, if_pos hfirst, List.nil_append]
  refine ⟨fun hlc => pass rfl ⟨hbound, ?_⟩, fun o n hrange hlc => pass rfl ⟨hbound, ?_⟩, pass rfl ⟨hbound, ?_⟩⟩
  · rw [if_pos hfirst]
    exact ⟨hframer, hlc, rfl⟩
  · rw [if_pos hfirst]
    exact ⟨hframer, hrange, hlc, rfl⟩
  · rw [if_pos hfirst]
    exact ⟨hframer, rfl⟩

/-- Settles O44: the checks were done in the first pass, so the bound is all that is tested. -/
theorem chainBoundReached : Obligations.ChainBoundReached := by
  unfold Obligations.ChainBoundReached
  intro i s hi hlater hbound
  exact exec_chain_bound hi hbound fun hfirst => absurd hfirst hlater

end Sys2Proof.Machine
end

section
/-!
PROOFS. A whole chain operation: the state after any number of responses that end 0x91AF, by induction on them, and
the two ways the operation ends from there, with a last response or at its bound.
-/

namespace Sys2Proof.Machine

/-! ### A chain operation without an action of the host -/

/-- A chain operation is in progress and the host does nothing. -/
structure ChainRunning (i : Instr) (s : State) : Prop where
  busy : s.phase = .busy
  decoded : decode s.d = .ok i
  chain : i.isChain = true
  noHost : s.host = []

/-- A run of a chain operation begins with a step of that operation. -/
theorem ChainRunning.run_succ {i : Instr} {s t : State} (h : ChainRunning i s) (hexec : exec i s = .next t) (n : Nat) :
    Host.Core.run Sys2Proof.core (n + 1) s = Host.Core.run Sys2Proof.core n t :=
  run_succ_of_engineStep h.noHost ((engineStep_eq_exec h.busy h.decoded).trans hexec)

/-- A run of one step ends with what the operation leaves. -/
theorem ChainRunning.run_one {i : Instr} {s t : State} (h : ChainRunning i s) (hexec : exec i s = .next t) :
    Host.Core.run Sys2Proof.core 1 s = .next t :=
  h.run_succ hexec 0

/-! ### Any number of fragments (43_framer R188, R190) -/

/-- The answers of a card that gives the data of `more` and each time says that more follows (30_encoding R72). -/
def moreDataAnswers (more : List Bytes) : List Answer := more.map fun r => .ok (r ++ [0x91#8, 0xAF#8])

/-- What the loop leaves after the frame `f` and then `k` continuation frames, each answered with more data: `acc` in
`ACC`, each exchange counted. -/
def afterFragments (acc f : Bytes) (k : Nat) (rest : List Answer) (s : State) : State :=
  { s with
    acc := acc
    iter := s.iter + (k + 1)
    txf := contFrame s.cfg
    link := ⟨rest, (s.link.exchanged f rest).sent ++ List.replicate k (contFrame s.cfg), false⟩ }

theorem chainRunning_afterFragments {i : Instr} {s : State} (h : ChainRunning i s) (acc f : Bytes) (k : Nat)
    (rest : List Answer) : ChainRunning i (afterFragments acc f k rest s) :=
  ⟨h.busy, h.decoded, h.chain, h.noHost⟩

theorem accBefore_afterFragments (i : Instr) (acc f : Bytes) (k : Nat) (rest : List Answer) (s : State) :
    accBefore i (afterFragments acc f k rest s) = acc := by
  simp [accBefore, afterFragments]

/-- After any number of fragments a chain below its bound sends the continuation frame (43_framer R188). -/
theorem sends_afterFragments {i : Instr} {s : State} {k : Nat} (hi : i.isChain = true)
    (hbound : s.iter + (k + 1) ≠ s.cfg.chainMax) (acc f : Bytes) (rest : List Answer) :
    sends i (afterFragments acc f k rest s) (contFrame s.cfg) :=
  sends_txf (s := afterFragments acc f k rest s) hi (Nat.succ_ne_zero _) hbound

theorem afterFragments_zero (acc f : Bytes) (rest : List Answer) (s : State) :
    afterFragments acc f 0 rest s = afterMoreData acc f rest s := by
  simp [afterFragments, afterMoreData, Link.exchanged]

/-- A last exchange after `k` continuation frames is one more continuation frame on the link. -/
theorem exchanged_afterFragments (acc f : Bytes) (k : Nat) (rest rest' : List Answer) (s : State) :
    (afterFragments acc f k rest' s).link.exchanged (contFrame s.cfg) rest =
      ⟨rest, (s.link.exchanged f rest).sent ++ List.replicate (k + 1) (contFrame s.cfg), false⟩ := by
  simp [afterFragments, Link.exchanged, List.replicate_succ']

/-- One exchange of `f` and then `k + 1` of the continuation frame. -/
theorem afterFragments_afterFragments_zero (acc acc' f : Bytes) (k : Nat) (rest rest' : List Answer) (s : State) :
    afterFragments acc (contFrame s.cfg) k rest (afterFragments acc' f 0 rest' s) =
      afterFragments acc f (k + 1) rest s := by
  have hcount : s.iter + 1 + (k + 1) = s.iter + (k + 1 + 1) := by omega
  simp [afterFragments, Link.exchanged, List.replicate_succ, hcount]

/-- A chain that sends `f` takes one step for each fragment, as long as its bound allows. -/
theorem ChainRunning.run_fragments {i : Instr} {f r : Bytes} {more : List Bytes} {rest : List Answer} {s : State}
    (h : ChainRunning i s) (hsends : sends i s f) (hbound : s.iter + (r :: more).length ≤ s.cfg.chainMax)
    (hlen : ∀ d ∈ r :: more, d.length + 2 ≤ s.cfg.frameMax)
    (hanswers : s.link.answers = moreDataAnswers (r :: more) ++ rest) (n : Nat) :
    Host.Core.run Sys2Proof.core ((r :: more).length + n) s = Host.Core.run Sys2Proof.core n
      (afterFragments (accBefore i s ++ (r :: more).flatten) f more.length rest s) := by
  induction more generalizing f r s with
  | nil =>
    have hexec := exec_chain_moreData h.chain hsends (hlen r (by simp)) hanswers
    rw [List.length_nil, afterFragments_zero, List.flatten_singleton, List.length_singleton, Nat.add_comm]
    exact h.run_succ hexec n
  | cons r' more ih =>
    obtain ⟨hr, hmore⟩ := List.forall_mem_cons.mp hlen
    have hexec := exec_chain_moreData h.chain hsends hr hanswers
    rw [← afterFragments_zero] at hexec
    have hbound' : s.iter + 1 + (r' :: more).length ≤ s.cfg.chainMax := by
      rwa [Nat.add_assoc, Nat.add_comm 1]
    have hlater : s.iter + 1 < s.cfg.chainMax :=
      (Nat.lt_add_of_pos_right (Nat.succ_pos _)).trans_le hbound'
    have hsends' := sends_afterFragments (k := 0) h.chain hlater.ne (accBefore i s ++ r) f
      (moreDataAnswers (r' :: more) ++ rest)
    have htail := ih (chainRunning_afterFragments h ..) hsends' hbound' hmore rfl
    rw [List.length_cons, Nat.succ_add]
    refine (h.run_succ hexec _).trans (htail.trans ?_)
    rw [accBefore_afterFragments, List.append_assoc, ← List.flatten_cons, afterFragments_afterFragments_zero,
      List.length_cons]

/-! ### The two ways a chain operation ends (43_framer R188, R189) -/

/-- Settles O50: a chain with one response completes in its first pass; a longer one goes through its fragments and
completes on the pass after them. -/
theorem chainAccumulatesAllFragments : Obligations.ChainAccumulatesAllFragments := by
  unfold Obligations.ChainAccumulatesAllFragments
  intro i first last more rest s hbusy hd hi hhost hfirst hsends hmax hlen hanswers
  have hrun : ChainRunning i s := ⟨hbusy, hd, hi, hhost⟩
  have hnone : accBefore i s = [] := by rw [accBefore_eq hi, if_pos hfirst]
  obtain ⟨hlast, hmore⟩ := List.forall_mem_cons.mp hlen
  cases more with
  | nil =>
    rw [List.length_nil, hrun.run_one (exec_chain_complete hi hsends hlast hanswers), hnone]
    simp [Link.exchanged]
  | cons r more =>
    have hbound : s.iter + (more.length + 1) < s.cfg.chainMax := by rw [hfirst, Nat.zero_add]; exact hmax
    have hsends' := sends_afterFragments hi hbound.ne (r :: more).flatten first
      (.ok (last ++ [0x91#8, 0x00#8]) :: rest)
    have hexec := exec_chain_complete hi hsends' hlast rfl
    rw [accBefore_afterFragments, exchanged_afterFragments] at hexec
    rw [hrun.run_fragments hsends hbound.le hmore hanswers, hnone, List.nil_append,
      (chainRunning_afterFragments hrun ..).run_one hexec]
    rfl

/-- Settles O51: after `CHAIN_MAX` fragments the next pass finds the bound. -/
theorem endlessChainIsCutOff : Obligations.EndlessChainIsCutOff := by
  unfold Obligations.EndlessChainIsCutOff
  intro i first more rest s hbusy hd hi hhost hfirst hsends hmax hlen hanswers
  have hrun : ChainRunning i s := ⟨hbusy, hd, hi, hhost⟩
  have hpos : s.iter ≠ s.cfg.chainMax := (exec_chain_sends hi hsends).1
  cases more with
  | nil => exact absurd (hfirst.trans hmax) hpos
  | cons r more =>
    have hbound : s.iter + (more.length + 1) = s.cfg.chainMax := by rw [hfirst, Nat.zero_add]; exact hmax
    have hcutOff := exec_chain_bound
      (s := afterFragments (accBefore i s ++ (r :: more).flatten) first more.length rest s) hi hbound
      fun hz => absurd hz (Nat.succ_ne_zero _)
    have hsent : s.cfg.chainMax - 1 = more.length := by rw [← hmax]; rfl
    have hfragments := hrun.run_fragments hsends hbound.le hlen hanswers 1
    rw [hmax] at hfragments
    rw [hsent, hfragments]
    exact (chainRunning_afterFragments hrun ..).run_one hcutOff

end Sys2Proof.Machine
end

section
/-!
PROOFS. Completion and the codes of its causes; and the operand errors of the cipher operations, first cause first,
which show the lengths of the operands and nothing else of them.
-/

namespace Sys2Proof.Machine

/-! ### Completion and the codes (60_exceptions R220, R221, R226) -/

/-- Settles O11: each is the record update it is defined as, with the data of a success written to the empty result
space. -/
theorem completionEffect : Obligations.CompletionEffect := by
  unfold Obligations.CompletionEffect
  exact fun s => ⟨fun _ => rfl, fun e => raise_eq_complete e s, fun data => finish_eq_complete data s⟩

/-- `OP[7:4]` and `RES.code[7:4]` are the quotient by 16 (30_encoding R60; 10_state R28). -/
theorem highNibble_toNat (b : Byte) : (b.extractLsb' 4 4).toNat = b.toNat / 16 := by
  have hb : b.toNat < 256 := b.isLt
  rw [BitVec.extractLsb'_toNat, Nat.shiftRight_eq_div_pow]
  omega

/-- Settles O12: the rows of the table are the definition's; a code's class is read from its high nibble. -/
theorem causeCodes : Obligations.CauseCodes := by
  unfold Obligations.CauseCodes
  refine ⟨⟨rfl, rfl⟩, ⟨rfl, rfl⟩, ⟨rfl, rfl⟩, ⟨rfl, rfl⟩, ⟨rfl, rfl⟩, ⟨rfl, rfl⟩, ⟨rfl, rfl⟩, ⟨rfl, rfl⟩, ⟨rfl, rfl⟩,
    ⟨rfl, rfl⟩, ⟨rfl, rfl⟩, fun code => ?_⟩
  rw [codeClass, highNibble_toNat]
  match code.toNat / 16 with
  | 0 | 1 | 2 | 3 | 4 => rfl
  | n + 5 => simp

/-! ### The checks of a cipher operation, first cause first (60_exceptions R224) -/

section
variable {C : Cipher} {iv key msg : Bytes} {rg : Range} (hkey : key.length = C.keyLen)
include hkey

theorem cipherOp_wrongIvSize (hiv : iv.length ≠ C.block) (dir : Dir) (s : State) :
    cipherOp C dir iv key msg rg s = .next (complete ⟨0x12#8, C.block, iv.length, []⟩ s) := by
  have hchecks : cipherError C iv key msg rg = some ⟨.invalidIvSize, C.block, iv.length⟩ := by
    rw [cipherError, if_neg (not_not_intro hkey), if_pos hiv]
  simp only [cipherOp_eq, hchecks, raise_eq_complete, Cause.code]

variable (hiv : iv.length = C.block)
include hiv

theorem cipherOp_outOfRange (hrange : rg.off + rg.len > msg.length) (dir : Dir) (s : State) :
    cipherOp C dir iv key msg rg s = .next (complete ⟨0x42#8, msg.length, rg.off + rg.len, []⟩ s) := by
  have hchecks : cipherError C iv key msg rg = some ⟨.rangeOutOfBounds, msg.length, rg.off + rg.len⟩ := by
    rw [cipherError, if_neg (not_not_intro hkey), if_neg (not_not_intro hiv), if_pos hrange]
  simp only [cipherOp_eq, hchecks, raise_eq_complete, Cause.code]

theorem cipherOp_wrongBlockLength (hrange : rg.off + rg.len ≤ msg.length) (hblocks : rg.len % C.block ≠ 0) (dir : Dir)
    (s : State) : cipherOp C dir iv key msg rg s = .next (complete ⟨0x13#8, C.block, rg.len, []⟩ s) := by
  have hchecks : cipherError C iv key msg rg = some ⟨.invalidBlockLength, C.block, rg.len⟩ := by
    rw [cipherError, if_neg (not_not_intro hkey), if_neg (not_not_intro hiv), if_neg (Nat.not_lt.mpr hrange),
      if_pos hblocks]
  simp only [cipherOp_eq, hchecks, raise_eq_complete, Cause.code]

/-- All of a buffer is in range, so a whole form goes from the IV to the block length (20_memory R42). -/
theorem cipherOp_whole_wrongBlockLength (hblocks : msg.length % C.block ≠ 0) (dir : Dir) (s : State) :
    cipherOp C dir iv key msg (wholeOf msg) s = .next (complete ⟨0x13#8, C.block, msg.length, []⟩ s) :=
  cipherOp_wrongBlockLength hkey hiv (rg := wholeOf msg) (by simp) hblocks dir s

end

/-- Settles O16: the four checks of the shared step, with the sizes of the AES record. -/
theorem aesErrorsInPriorityOrder : Obligations.AesErrorsInPriorityOrder := by
  unfold Obligations.AesErrorsInPriorityOrder
  intro iv key msg o n s
  simp only [List.forall_mem_cons]
  refine ⟨fun hkey => ?_, fun hkey hiv => ?_, fun hkey hiv hrange => ?_, fun hkey hiv hrange hblocks => ?_,
    fun hkey hiv hblocks => ?_⟩
  · have hop (dir : Dir) (rg : Range) := cipherOp_wrongKeySize (C := aesCipher) hkey dir iv msg rg s
    exact ⟨hop .encrypt (wholeOf msg), hop .decrypt (wholeOf msg), hop .decrypt ⟨o, n⟩, by simp⟩
  · have hop (dir : Dir) (rg : Range) := cipherOp_wrongIvSize (C := aesCipher) (msg := msg) (rg := rg) hkey hiv dir s
    exact ⟨hop .encrypt (wholeOf msg), hop .decrypt (wholeOf msg), hop .decrypt ⟨o, n⟩, by simp⟩
  · exact cipherOp_outOfRange (C := aesCipher) (rg := ⟨o, n⟩) hkey hiv hrange .decrypt s
  · exact cipherOp_wrongBlockLength (C := aesCipher) (rg := ⟨o, n⟩) hkey hiv hrange hblocks .decrypt s
  · have hop (dir : Dir) := cipherOp_whole_wrongBlockLength (C := aesCipher) hkey hiv hblocks dir s
    exact ⟨hop .encrypt, hop .decrypt, by simp⟩

/-- Settles O17: the four checks of the shared step, with the sizes of the TDES record; the IV of a Z form is one
block, so its check passes (40_cipher_common R93). -/
theorem tdesErrorsInPriorityOrder : Obligations.TdesErrorsInPriorityOrder := by
  unfold Obligations.TdesErrorsInPriorityOrder
  intro iv key msg o n s
  have hzero : (zeros tdesCipher.block).length = tdesCipher.block := zeros_length _
  simp only [List.forall_mem_cons]
  refine ⟨fun hkey => ?_, fun hkey hiv => ?_, fun hkey hrange => ?_, fun hkey hrange hblocks => ?_,
    fun hkey hblocks => ?_⟩
  · have hop (dir : Dir) (iv : Bytes) (rg : Range) := cipherOp_wrongKeySize (C := tdesCipher) hkey dir iv msg rg s
    exact ⟨hop .encrypt iv (wholeOf msg), hop .decrypt iv (wholeOf msg), hop .decrypt iv ⟨o, n⟩,
      hop .decrypt (zeros tdesCipher.block) (wholeOf msg), hop .decrypt (zeros tdesCipher.block) ⟨o, n⟩, by simp⟩
  · have hop (dir : Dir) (rg : Range) := cipherOp_wrongIvSize (C := tdesCipher) (msg := msg) (rg := rg) hkey hiv dir s
    exact ⟨hop .encrypt (wholeOf msg), hop .decrypt (wholeOf msg), hop .decrypt ⟨o, n⟩, by simp⟩
  · have hop {iv : Bytes} (hiv : iv.length = tdesCipher.block) :=
      cipherOp_outOfRange (rg := ⟨o, n⟩) hkey hiv hrange .decrypt s
    exact ⟨fun hiv => hop hiv, hop hzero⟩
  · have hop {iv : Bytes} (hiv : iv.length = tdesCipher.block) :=
      cipherOp_wrongBlockLength (rg := ⟨o, n⟩) hkey hiv hrange hblocks .decrypt s
    exact ⟨fun hiv => hop hiv, hop hzero⟩
  · have hop {iv : Bytes} (hiv : iv.length = tdesCipher.block) (dir : Dir) :=
      cipherOp_whole_wrongBlockLength hkey hiv hblocks dir s
    exact ⟨fun hiv => ⟨hop hiv .encrypt, hop hiv .decrypt⟩, hop hzero .decrypt⟩

/-! ### An error shows lengths only (60_exceptions R223, R236) -/

/-- Two descriptors with one code and one range whose IV, KEY and MSG have the same lengths. -/
structure SameLengths (d d' : Descriptor) : Prop where
  op : d'.op = d.op
  offset : d'.offset = d.offset
  length : d'.length = d.length
  iv : d'.iv.length = d.iv.length
  key : d'.key.length = d.key.length
  msg : d'.msg.length = d.msg.length

/-- The checks read the lengths of the operands and the range (40_cipher_common R92 to R95). -/
theorem cipherError_congr_lengths {iv iv' key key' msg msg' : Bytes} (hiv : iv'.length = iv.length)
    (hkey : key'.length = key.length) (hmsg : msg'.length = msg.length) (C : Cipher) (rg : Range) :
    cipherError C iv' key' msg' rg = cipherError C iv key msg rg := by
  simp only [cipherError, hiv, hkey, hmsg]

/-- The eight codes of the cipher operations (30_encoding R64). -/
def cipherCodes : List Byte := [0x10#8, 0x11#8, 0x13#8, 0x20#8, 0x21#8, 0x23#8, 0x25#8, 0x27#8]

theorem mem_cipherCodes : ∀ op ∈ legalCodes, op.toNat / 16 ≠ 4 → op ∈ cipherCodes := by decide

/-- The record of a cipher code, by its unit (30_encoding R61). -/
def cipherRecord (op : Byte) : Cipher := if opUnit op = 0x1#4 then aesCipher else tdesCipher

/-- The direction of a cipher code, by its DIR bit (30_encoding R62). -/
def cipherDir (op : Byte) : Dir := if opDir op then .decrypt else .encrypt

/-- The IV a cipher code uses: zero where its Z bit is set (30_encoding R62; 40_cipher_common R93). -/
def cipherIv (op : Byte) (iv : Bytes) : Bytes := if opZero op then zeros tdesCipher.block else iv

/-- The range a cipher code works on: all of the message unless its R bit is set (30_encoding R62; 20_memory R42). -/
def cipherRange (op : Byte) (msg : Bytes) (rg : Range) : Range := if opRange op then rg else wholeOf msg

/-- The checks of a descriptor with a cipher code (40_cipher_common R91 steps 2 to 5). -/
def latchError (d : Descriptor) : Option OpError :=
  cipherError (cipherRecord d.op) (cipherIv d.op d.iv) d.key d.msg (cipherRange d.op d.msg ⟨d.offset, d.length⟩)

/-- A cipher code decodes to an operation that is the shared step with the record, direction, IV and range that the
code's unit and flag bits name (30_encoding R62; 40_cipher_common R91). -/
theorem decode_cipherCode {op : Byte} (hop : op ∈ cipherCodes) (iv key msg : Bytes) (o n : Nat) (c : Byte)
    (e : BitVec 16) : ∃ i, decode ⟨op, iv, key, msg, o, n, c, e⟩ = .ok i ∧ ∀ s, exec i s =
      cipherOp (cipherRecord op) (cipherDir op) (cipherIv op iv) key msg (cipherRange op msg ⟨o, n⟩) s := by
  obtain ⟨hAesEnc, hAesDec, hAesDecR, hTdesEnc, hTdesDec, hTdesDecR, hTdesDecZ, hTdesDecZR, -⟩ :=
    tabledCodesDecode iv key msg o n c e
  simp only [cipherCodes, List.mem_cons, List.not_mem_nil, or_false] at hop
  rcases hop with rfl | rfl | rfl | rfl | rfl | rfl | rfl | rfl
  · exact ⟨_, hAesEnc, fun _ => rfl⟩
  · exact ⟨_, hAesDec, fun _ => rfl⟩
  · exact ⟨_, hAesDecR, fun _ => rfl⟩
  · exact ⟨_, hTdesEnc, fun _ => rfl⟩
  · exact ⟨_, hTdesDec, fun _ => rfl⟩
  · exact ⟨_, hTdesDecR, fun _ => rfl⟩
  · exact ⟨_, hTdesDecZ, fun _ => rfl⟩
  · exact ⟨_, hTdesDecZR, fun _ => rfl⟩

/-- The shared step ends with the first check that fails, or with success (40_cipher_common R91). -/
theorem cipherOp_ends (C : Cipher) (dir : Dir) (iv key msg : Bytes) (rg : Range) (s : State) :
    (∀ e, cipherError C iv key msg rg = some e → cipherOp C dir iv key msg rg s = .next (raise e s)) ∧
      (cipherError C iv key msg rg = none → ∃ data, cipherOp C dir iv key msg rg s = .next (finish data s)) :=
  ⟨fun e h => by simp only [cipherOp_eq, h],
    fun h => ⟨(cbcRun C dir iv key (slice msg rg.off rg.len)).1, by simp only [cipherOp_eq, h]⟩⟩

/-- A step of a busy engine on a cipher code is the shared step on the latch's operands (70_reset_and_hazards R262). -/
theorem step_cipherCode {s : State} (hbusy : s.phase = .busy) (hhost : s.host = []) (hop : s.d.op ∈ cipherCodes) :
    (∀ e, latchError s.d = some e → step s = .next (raise e s)) ∧
      (latchError s.d = none → ∃ data, step s = .next (finish data s)) := by
  obtain ⟨i, hd, hexec⟩ := decode_cipherCode hop s.d.iv s.d.key s.d.msg s.d.offset s.d.length s.d.cmd s.d.expect
  rw [step_eq_engineStep hhost, engineStep_eq_exec hbusy hd, hexec]
  exact cipherOp_ends ..

/-- A step of a busy engine on a reserved code (30_encoding R65). -/
theorem step_reserved {s : State} (hbusy : s.phase = .busy) (hhost : s.host = []) (hop : s.d.op ∉ legalCodes) :
    step s = .next (raiseIllegalOp s) := by
  obtain ⟨-, hreserved⟩ := reservedCodeIsIllegalOp
  exact hreserved s hbusy hhost hop

theorem cipherIv_length_congr {iv iv' : Bytes} (h : iv'.length = iv.length) (op : Byte) :
    (cipherIv op iv').length = (cipherIv op iv).length := by
  unfold cipherIv
  split
  · rfl
  · exact h

/-- The checks end the operations of both descriptors alike (60_exceptions R223). -/
theorem SameLengths.latchError_eq {d d' : Descriptor} (h : SameLengths d d') : latchError d' = latchError d := by
  have hrange : cipherRange d.op d'.msg ⟨d.offset, d.length⟩ = cipherRange d.op d.msg ⟨d.offset, d.length⟩ := by
    simp only [cipherRange, wholeOf, h.msg]
  rw [latchError, h.op, h.offset, h.length, hrange]
  exact cipherError_congr_lengths (cipherIv_length_congr h.iv d.op) h.key h.msg ..

/-- Settles O24: the answer to a reserved code shows that code only, and a cipher code meets its checks first, which
read lengths only; where they pass, the result is a success. -/
theorem cipherErrorShowsLengthsOnly : Obligations.CipherErrorShowsLengthsOnly := by
  unfold Obligations.CipherErrorShowsLengthsOnly
  intro d d' s t hunit hbusy hhost hop hoffset hlength hiv hkey hmsg hstep herror
  have h : SameLengths d d' := ⟨hop, hoffset, hlength, hiv, hkey, hmsg⟩
  by_cases hlegal : d.op ∈ legalCodes
  · have hcode := mem_cipherCodes d.op hlegal hunit
    obtain ⟨hraise, hfinish⟩ := step_cipherCode (s := { s with d := d }) hbusy hhost hcode
    obtain ⟨hraise', -⟩ := step_cipherCode (s := { s with d := d' }) hbusy hhost (hop ▸ hcode)
    cases hchecks : latchError d with
    | some e =>
      cases hstep.symm.trans (hraise e hchecks)
      exact hraise' e (h.latchError_eq.trans hchecks)
    | none =>
      obtain ⟨data, hdone⟩ := hfinish hchecks
      cases hstep.symm.trans hdone
      exact absurd (by rw [finish_res]) herror
  · rw [step_reserved (s := { s with d := d }) hbusy hhost hlegal] at hstep
    cases hstep
    rw [step_reserved (s := { s with d := d' }) hbusy hhost (hop ▸ hlegal)]
    simp only [raiseIllegalOp, hop]
    rfl

end Sys2Proof.Machine
end

section
/-!
PROOFS. What the framer operations leave unchanged: an operand error ends them without an exchange, an exchange that is
not answered leaves them where they are, and the only frame sent is the one the operation exchanges.
-/

namespace Sys2Proof.Machine

/-! ### The checks of a framer operation, first cause first (60_exceptions R225) -/

section
variable {s : State} {msg : Bytes} {rg : Range}

theorem framerError_unitAbsent (hf : s.cfg.hasFramer = false) :
    framerError s msg rg = some ⟨.unitAbsent, 0, s.d.op.toNat⟩ := by
  simp only [framerError, hf, Bool.false_eq_true, not_false_eq_true, ite_true]

theorem unitError_unitAbsent (hf : s.cfg.hasFramer = false) : unitError s = some ⟨.unitAbsent, 0, s.d.op.toNat⟩ := by
  simp only [unitError, hf, Bool.false_eq_true, ite_false]

variable (hf : s.cfg.hasFramer = true)
include hf

theorem framerError_outOfRange (hrange : rg.off + rg.len > msg.length) :
    framerError s msg rg = some ⟨.rangeOutOfBounds, msg.length, rg.off + rg.len⟩ := by
  rw [framerError, if_neg (not_not_intro hf), if_pos hrange]

theorem framerError_paramTooLong (hrange : rg.off + rg.len ≤ msg.length) (hlen : rg.len > Config.lcMax) :
    framerError s msg rg = some ⟨.paramTooLong, 255, rg.len⟩ := by
  rw [framerError, if_neg (not_not_intro hf), if_neg (Nat.not_lt.mpr hrange), if_pos hlen]
  rfl

end

/-- Settles O47: with nothing exchanged yet an operand error ends any of the five, and each clause is one check. -/
theorem framerErrorsInPriorityOrder : Obligations.FramerErrorsInPriorityOrder := by
  unfold Obligations.FramerErrorsInPriorityOrder
  intro msg o n c e s hfirst
  have ends (err : OpError) {i : Instr} (h : operandError i s = some err) : exec i s = .next (complete err.result s) :=
    exec_operandError h fun _ => hfirst
  simp only [List.forall_mem_cons]
  refine ⟨fun hf => ?_, fun hf hrange => ?_, fun hf hrange hlen => ?_, fun hf hlen => ?_⟩
  · have absent {i : Instr} := ends ⟨.unitAbsent, 0, s.d.op.toNat⟩ (i := i)
    exact ⟨absent (framerError_unitAbsent hf), absent (framerError_unitAbsent hf), absent (framerError_unitAbsent hf),
      absent (framerError_unitAbsent hf), absent (unitError_unitAbsent hf), by simp⟩
  · have outOfRange {i : Instr} := ends ⟨.rangeOutOfBounds, msg.length, o + n⟩ (i := i)
    have h := framerError_outOfRange (rg := ⟨o, n⟩) hf hrange
    exact ⟨outOfRange h, outOfRange h, by simp⟩
  · have tooLong {i : Instr} := ends ⟨.paramTooLong, 255, n⟩ (i := i)
    have h := framerError_paramTooLong (rg := ⟨o, n⟩) hf hrange hlen
    exact ⟨tooLong h, tooLong h, by simp⟩
  · have tooLong {i : Instr} := ends ⟨.paramTooLong, 255, msg.length⟩ (i := i)
    have h := framerError_paramTooLong (rg := wholeOf msg) (msg := msg) hf (by simp) hlen
    exact ⟨tooLong h, tooLong h, by simp⟩

/-! ### An exchange that is not answered (60_exceptions R234) -/

/-- The link once a frame has been handed over, field by field (60_exceptions R234). -/
theorem handOver_eq (f : Bytes) (l : Link) :
    l.handOver f = ⟨l.answers, if l.outstanding then l.sent else l.sent ++ [f], true⟩ := by
  obtain ⟨answers, sent, outstanding⟩ := l
  cases outstanding <;> rfl

/-- With no answer or a silence next, an exchange hands its frame over and waits (00_scope R16; log 4). -/
theorem exchange_unanswered {s : State} (h : s.link.answers = [] ∨ ∃ rest, s.link.answers = .silent :: rest)
    (f : Bytes) : exchange f s = (.waiting, { s with link :=
      ⟨s.link.answers.tail, if s.link.outstanding then s.link.sent else s.link.sent ++ [f], true⟩ }) := by
  obtain hnone | ⟨rest, hsilent⟩ := h
  · simp [exchange, handOver_eq, hnone]
  · simp [exchange, handOver_eq, hsilent]

/-- A step whose exchange waits leaves the operation where it is, its frame in `TXF`. -/
theorem ExchangeStep.eq_of_waiting {chain : Bool} {f acc : Bytes} {s t u : State} (h : ExchangeStep chain f acc s t)
    (hwait : exchange f s = (.waiting, u)) : t = { u with acc := acc, iter := s.iter, txf := f } := by
  cases h with
  | waits hx => cases hwait.symm.trans hx; rfl
  | ends hx hrep _ _ => cases hwait.symm.trans hx; exact absurd rfl hrep
  | goesOn hx _ _ => cases hwait.symm.trans hx

/-- Settles O48: the operation performs its exchange, and the exchange waits. -/
theorem unansweredExchangeWaits : Obligations.UnansweredExchangeWaits := by
  unfold Obligations.UnansweredExchangeWaits
  intro i f s hsends hanswers
  obtain ⟨t, hexec, hstep⟩ := exec_exchangeStep hsends
  obtain rfl := hstep.eq_of_waiting (exchange_unanswered hanswers f)
  exact ⟨_, hexec, rfl, rfl, rfl, rfl, rfl, rfl, rfl, rfl, rfl⟩

/-! ### The frame of the framer operations (43_framer R181 to R185) -/

/-- What one exchange of `f` does to the link: the frame is handed over unless it already was, and at most one answer is
taken (60_exceptions R234). -/
structure OneExchange (f : Bytes) (l l' : Link) : Prop where
  sent : l'.sent = if l.outstanding then l.sent else l.sent ++ [f]
  answers : l'.answers = l.answers ∨ ∃ a, l.answers = a :: l'.answers

/-- An exchange changes the link by one exchange, and the free-value counter only where it fails (00_scope R9, R16; log
5). -/
theorem exchange_link {f : Bytes} {s t : State} {rep : Reply} (h : exchange f s = (rep, t)) :
    ∃ l n, t = { s with link := l, freeCount := n } ∧ OneExchange f s.link l ∧
      ((∀ reason, rep ≠ .fail reason) → n = s.freeCount) := by
  have hsent := handOver_sent f s.link
  obtain ⟨-, ⟨-, rfl⟩ | ⟨rest, ha, rfl⟩⟩ | ⟨r, rest, -, ha, -, rfl⟩ | ⟨reason, rest, -, ha, rfl⟩ |
    ⟨r, rest, rfl, ha, -, rfl⟩ := exchange_cases h
  · exact ⟨_, s.freeCount, rfl, ⟨hsent, .inl (handOver_answers ..)⟩, fun _ => rfl⟩
  · exact ⟨_, s.freeCount, rfl, ⟨hsent, .inr ⟨_, ha⟩⟩, fun _ => rfl⟩
  · exact ⟨_, s.freeCount, rfl, ⟨hsent, .inr ⟨_, ha⟩⟩, fun _ => rfl⟩
  · exact ⟨_, s.freeCount, rfl, ⟨hsent, .inr ⟨_, ha⟩⟩, fun _ => rfl⟩
  · exact ⟨_, s.freeCount + 1, rfl, ⟨hsent, .inr ⟨_, ha⟩⟩, fun hno => absurd rfl (hno _)⟩

/-- A step that performs an exchange changes the link by it, and beside it the framer working state, or it completes. -/
theorem ExchangeStep.frame {chain : Bool} {f acc : Bytes} {s t : State} (h : ExchangeStep chain f acc s t) :
    ∃ l, OneExchange f s.link l ∧
      ((∃ a n g, t = { s with acc := a, iter := n, txf := g, link := l }) ∨
        ∃ r m, t = complete r { s with link := l, freeCount := m }) := by
  cases h with
  | waits hx =>
    obtain ⟨l, m, rfl, hlink, hcount⟩ := exchange_link hx
    obtain rfl := hcount (by simp)
    exact ⟨l, hlink, .inl ⟨_, _, _, rfl⟩⟩
  | ends hx hrep hlegal hfits =>
    obtain ⟨l, m, rfl, hlink, -⟩ := exchange_link hx
    exact ⟨l, hlink, .inr ⟨_, m, rfl⟩⟩
  | goesOn hx hchain hdata =>
    obtain ⟨l, m, rfl, hlink, hcount⟩ := exchange_link hx
    obtain rfl := hcount (by simp)
    exact ⟨l, hlink, .inl ⟨_, _, _, rfl⟩⟩

/-- The frame of one exchange is the only one that can be new, and only where none was outstanding. -/
theorem OneExchange.sent_cases {f : Bytes} {l l' : Link} (h : OneExchange f l l') :
    l'.sent = l.sent ∨ (l.outstanding = false ∧ l'.sent = l.sent ++ [f]) := by
  cases hout : l.outstanding with
  | true => exact .inl (by rw [h.sent, if_pos hout])
  | false => exact .inr ⟨rfl, by rw [h.sent, hout]; rfl⟩

/-- Settles O49: an operation that completes without an exchange leaves the link alone, and one that exchanges a frame
changes it by that exchange. -/
theorem framerOperationsFrame : Obligations.FramerOperationsFrame := by
  unfold Obligations.FramerOperationsFrame
  intro i s t hi hexec
  obtain ⟨e, -, hraise⟩ | ⟨-, -, hraise⟩ | ⟨f, hsends⟩ := exec_framer_cases hi s
  · cases hexec.symm.trans hraise
    exact ⟨rfl, rfl, rfl, fun _ => rfl, .inl rfl, .inl rfl, .inr rfl⟩
  · cases hexec.symm.trans hraise
    exact ⟨rfl, rfl, rfl, fun _ => rfl, .inl rfl, .inl rfl, .inr rfl⟩
  · obtain ⟨u, hu, hstep⟩ := exec_exchangeStep hsends
    cases hexec.symm.trans hu
    obtain ⟨l, hlink, hend⟩ := hstep.frame
    have hsent : l.sent = s.link.sent ∨ ∃ f, sends i s f ∧ s.link.outstanding = false ∧ l.sent = s.link.sent ++ [f] :=
      hlink.sent_cases.imp_right fun h => ⟨f, hsends, h⟩
    obtain ⟨a, n, g, rfl⟩ | ⟨r, m, rfl⟩ := hend
    · exact ⟨rfl, rfl, rfl, fun _ => rfl, hsent, hlink.answers, .inl ⟨rfl, rfl, rfl, rfl, rfl⟩⟩
    · exact ⟨rfl, rfl, rfl, fun _ => rfl, hsent, hlink.answers, .inr rfl⟩

end Sys2Proof.Machine
end

section
/-!
PROOFS. The host's actions START and reset, the engine that has nothing to do, and the end of every operation: each
step of a busy engine whose exchange is answered completes the operation or counts one exchange towards the bound.
-/

namespace Sys2Proof.Machine

/-! ### START (70_reset_and_hazards R253, R255) -/

/-- A step in which the host starts a descriptor is that START (00_scope R11; log 6). -/
theorem step_start {d : Descriptor} {s : State} {rest : List HostAction} (hhost : s.host = .start d :: rest) :
    step s = .next (start d { s with host := rest }) := by
  simp only [step, turn, hhost]

/-- A framer operation is one whose code has the high nibble 4 (30_encoding R60; 70_reset_and_hazards R253). -/
theorem isFramerOp_iff {op : Byte} : isFramerOp op = true ↔ op.toNat / 16 = 4 := by
  rw [isFramerOp, beq_iff_eq, ← BitVec.toNat_inj, opUnit, highNibble_toNat]
  rfl

/-- An accepted START as one record: only a framer operation clears the framer working state. -/
theorem latch_eq (d : Descriptor) (s : State) : latch d s =
    if d.op.toNat / 16 = 4 then { s with d := d, done := false, phase := .busy, acc := [], iter := 0, txf := [] }
    else { s with d := d, done := false, phase := .busy } := by
  simp only [latch, isFramerOp_iff]

/-- Settles O6: START of an idle engine is accepted, and latches the descriptor. -/
theorem startEffect : Obligations.StartEffect := by
  unfold Obligations.StartEffect
  intro d s rest hidle hpres hhost
  rw [step_start hhost]
  obtain ⟨-, -, haccepted⟩ | ⟨hrefused, -⟩ := start_cases d { s with host := rest }
  · rw [haccepted, latch_eq]
  · exact absurd ⟨hidle, hpres⟩ hrefused

/-- Settles O7: START is accepted of an idle engine with a descriptor that can be presented only. -/
theorem startRefused : Obligations.StartRefused := by
  unfold Obligations.StartRefused
  intro d s rest hhost hnot
  rw [step_start hhost]
  obtain ⟨hidle, hpres, -⟩ | ⟨-, hrefused⟩ := start_cases d { s with host := rest }
  · obtain hbusy | hunfit := hnot
    · exact absurd (hidle.symm.trans hbusy) (by decide)
    · exact absurd (hpres.symm.trans hunfit) (by decide)
  · rw [hrefused]

/-! ### An idle engine (70_reset_and_hazards R251) -/

/-- The engine's own step does nothing when it is idle (00_scope R11). -/
theorem engineStep_idle {s : State} (hidle : s.phase = .idle) : engineStep s = .next s := by
  simp only [engineStep, hidle]

/-- Settles O8: by induction on the number of steps, each of which answers the same state. -/
theorem idleEngineDoesNothing : Obligations.IdleEngineDoesNothing := by
  unfold Obligations.IdleEngineDoesNothing
  intro s hidle hhost n
  induction n with
  | zero => rfl
  | succ n ih => exact (run_succ_of_engineStep hhost (engineStep_idle hidle)).trans ih

/-! ### Reset (70_reset_and_hazards R250, R251) -/

/-- A step in which the host resets the engine is that reset (00_scope R11; log 6). -/
theorem step_reset {s : State} {rest : List HostAction} (hhost : s.host = .reset :: rest) :
    step s = .next (resetEngine { s with host := rest }) := by
  simp only [step, turn, hhost]

/-- The answer that is dropped is the first that is one, with the silences before it (70_reset_and_hazards R251;
log 8). -/
theorem dropReply_silences (k : Nat) {a : Answer} (ha : a ≠ .silent) (later : List Answer) :
    dropReply (List.replicate k .silent ++ a :: later) = later := by
  induction k with
  | zero =>
    cases a with
    | silent => exact absurd rfl ha
    | ok _ | fail _ => rfl
  | succ k ih => exact ih

/-- Settles O10: the reset values are the definition's, and of the link only an exchange in progress is abandoned, with
its answer. -/
theorem resetAbandonsOperation : Obligations.ResetAbandonsOperation := by
  unfold Obligations.ResetAbandonsOperation
  intro s rest hhost
  refine ⟨_, step_reset hhost, rfl, rfl, rfl, rfl, rfl, rfl, rfl, rfl, rfl, rfl, rfl, rfl, rfl, rfl, ?_, ?_⟩
  · intro hout
    simp [hout]
  · intro k a later hout ha hanswers
    simp [hout, hanswers, dropReply_silences k ha]

/-! ### An exchange that is answered (60_exceptions R233, R234) -/

/-- An answer that is no silence ends the exchange, whatever it is (00_scope R9, R16). -/
theorem exchange_answered {f : Bytes} {a : Answer} {rest : List Answer} {s t : State} {rep : Reply}
    (hanswers : s.link.answers = a :: rest) (ha : a ≠ .silent) (h : exchange f s = (rep, t)) :
    rep ≠ .waiting ∧ ∃ m, t = { s with link := s.link.exchanged f rest, freeCount := m } := by
  cases a with
  | silent => exact absurd rfl ha
  | fail reason =>
    cases (exchange_fail hanswers).symm.trans h
    exact ⟨by simp, _, rfl⟩
  | ok r =>
    obtain hlong | hfits := Nat.lt_or_ge s.cfg.frameMax r.length
    · cases (exchange_overlong hanswers hlong).symm.trans h
      exact ⟨by simp, _, rfl⟩
    · cases (exchange_ok hanswers hfits).symm.trans h
      exact ⟨by simp, _, rfl⟩

/-- A step whose exchange is answered completes the operation, or goes on with the chain, one exchange further
(43_framer R181, R188). -/
theorem ExchangeStep.of_answered {chain : Bool} {f acc : Bytes} {a : Answer} {rest : List Answer} {s t : State}
    (h : ExchangeStep chain f acc s t) (hanswers : s.link.answers = a :: rest) (ha : a ≠ .silent) :
    ∃ m, (∃ r, t = complete r { s with link := s.link.exchanged f rest, freeCount := m }) ∨
      ∃ acc' txf, t = { s with acc := acc', iter := s.iter + 1, txf := txf, link := s.link.exchanged f rest,
                               freeCount := m } := by
  cases h with
  | waits hx => exact absurd rfl (exchange_answered hanswers ha hx).1
  | ends hx hrep hlegal hfits =>
    obtain ⟨-, m, rfl⟩ := exchange_answered hanswers ha hx
    exact ⟨m, .inl ⟨_, rfl⟩⟩
  | goesOn hx hchain hdata =>
    obtain ⟨-, m, rfl⟩ := exchange_answered hanswers ha hx
    exact ⟨m, .inr ⟨_, _, rfl⟩⟩

/-- An exchange hands over at most one frame (60_exceptions R234). -/
theorem exchanged_sent_length_le (l : Link) (f : Bytes) (rest : List Answer) :
    (l.exchanged f rest).sent.length ≤ l.sent.length + 1 := by
  cases hout : l.outstanding <;> simp [Link.exchanged, hout]

/-- The collaborator answers each of the next `k` exchanges at once. -/
def AnswersNext (k : Nat) (answers : List Answer) : Prop :=
  k ≤ answers.length ∧ ∀ a ∈ answers.take k, a ≠ .silent

theorem AnswersNext.cons {k : Nat} {answers : List Answer} (h : AnswersNext (k + 1) answers) :
    ∃ a rest, answers = a :: rest ∧ a ≠ .silent ∧ AnswersNext k rest := by
  obtain ⟨hlen, hsilent⟩ := h
  cases answers with
  | nil => simp at hlen
  | cons a rest =>
    obtain ⟨ha, hrest⟩ := List.forall_mem_cons.mp hsilent
    exact ⟨a, rest, rfl, ha, Nat.le_of_succ_le_succ hlen, hrest⟩

/-! ### Every operation ends (70_reset_and_hazards R261) -/

/-- An exchange is performed below the bound only, in a state of the invariant: a single exchange is the first, and
`CHAIN_MAX` is positive (43_framer R181, R189). -/
theorem Inv.iter_lt_of_sends {s : State} (h : Inv s) {i : Instr} {f : Bytes} (hd : decode s.d = .ok i)
    (hs : sends i s f) : s.iter < s.cfg.chainMax := by
  obtain ⟨-, hbound, hlater⟩ := h.sends_ready hd hs
  by_cases hfirst : s.iter = 0
  · have hmax : 1 ≤ s.cfg.chainMax := of_decide_eq_true h.paramsOk
    omega
  · exact hbound (hlater hfirst).1

/-- The engine's own step of a busy engine completes, or performs an exchange (70_reset_and_hazards R262). -/
theorem engineStep_busy {s : State} (hbusy : s.phase = .busy) : ∃ t, engineStep s = .next t ∧ BusyStep s t := by
  obtain ⟨t, hstep, ⟨hidle, -⟩ | ⟨-, hrun⟩⟩ := engineStep_next s
  · exact absurd (hidle.symm.trans hbusy) (by decide)
  · exact ⟨t, hstep, hrun⟩

/-- From `s` the operation in progress ends within `k + 1` steps and `k` frames, its descriptor still latched. -/
def EndsWithin (k : Nat) (s : State) : Prop :=
  ∃ (n : Nat) (t : State), n ≤ k + 1 ∧ Host.Core.run Sys2Proof.core n s = .next t ∧
    t.phase = .idle ∧ t.done = true ∧ t.d = s.d ∧ t.link.sent.length ≤ s.link.sent.length + k

/-- A step that completes the operation ends it. -/
theorem EndsWithin.of_complete {k : Nat} {s u : State} {r : Result} (hhost : s.host = [])
    (hstep : engineStep s = .next (complete r u)) (hd : u.d = s.d)
    (hsent : u.link.sent.length ≤ s.link.sent.length + k) : EndsWithin k s :=
  ⟨1, complete r u, Nat.le_add_left 1 k, run_succ_of_engineStep hhost hstep, rfl, rfl, hd, hsent⟩

/-- A step that hands over at most one frame leaves one step and one frame less. -/
theorem EndsWithin.of_step {k : Nat} {s t : State} (hhost : s.host = []) (hstep : engineStep s = .next t)
    (hd : t.d = s.d) (hsent : t.link.sent.length ≤ s.link.sent.length + 1) (h : EndsWithin k t) :
    EndsWithin (k + 1) s := by
  obtain ⟨n, u, hn, hrun, hidle, hdone, hdu, hu⟩ := h
  exact ⟨n + 1, u, Nat.succ_le_succ hn, (run_succ_of_engineStep hhost hstep).trans hrun, hidle, hdone, hdu.trans hd,
    by omega⟩

/-- The bound by induction on the exchanges that are left: a step completes, or it takes one of them. -/
theorem Inv.endsWithin {k : Nat} {s : State} (h : Inv s) (hbusy : s.phase = .busy) (hhost : s.host = [])
    (hleft : s.iter + k = s.cfg.chainMax) (hanswers : AnswersNext k s.link.answers) : EndsWithin k s := by
  induction k generalizing s with
  | zero =>
    obtain ⟨t, hstep, hrun⟩ := engineStep_busy hbusy
    cases hrun with
    | completes hdue hlegal hfits => exact .of_complete hhost hstep rfl (Nat.le_add_right ..)
    | exchanges hd hsends hx => exact absurd hleft (h.iter_lt_of_sends hd hsends).ne
  | succ k ih =>
    obtain ⟨t, hstep, hrun⟩ := engineStep_busy hbusy
    obtain ⟨a, rest, hnext, ha, hrest⟩ := hanswers.cons
    cases hrun with
    | completes hdue hlegal hfits => exact .of_complete hhost hstep rfl (Nat.le_add_right ..)
    | exchanges hd hsends hx =>
      have hinv : Inv t := h.exchangeStep hbusy hd hsends hx
      have hleft' : s.iter + 1 + k = s.cfg.chainMax := by omega
      obtain ⟨m, ⟨r, rfl⟩ | ⟨acc, txf, rfl⟩⟩ := hx.of_answered hnext ha
      · exact .of_complete hhost hstep rfl ((exchanged_sent_length_le ..).trans (by omega))
      · exact .of_step hhost hstep rfl (exchanged_sent_length_le ..) (ih hinv hbusy hhost hleft' hrest)

/-- Settles O59: `CHAIN_MAX - ITER` is the number of exchanges that are left. -/
theorem everyOperationEnds : Obligations.EveryOperationEnds := by
  unfold Obligations.EveryOperationEnds
  intro s hinv hbusy hhost hlen hsilent
  exact hinv.endsWithin hbusy hhost (Nat.add_sub_cancel' hinv.iterBound) ⟨hlen, hsilent⟩

end Sys2Proof.Machine
end

section
/-!
PROOFS. The decoder and the encoder are inverse, and the cipher operations on good operands.
-/

namespace Sys2Proof.Machine

/-! ### The decoder and the encoder (30_encoding R64, R66) -/

/-- Every operation is read back from its descriptor: the row of its code, with zero or empty in the fields that the
operation does not use. -/
theorem decode_encode (i : Instr) : decode (encode i) = .ok i := by
  cases i with
  | aesEnc iv key msg => obtain ⟨row, -⟩ := tabledCodesDecode iv key msg 0 0 0 0; exact row
  | aesDec iv key msg => obtain ⟨-, row, -⟩ := tabledCodesDecode iv key msg 0 0 0 0; exact row
  | aesDecR iv key msg o n => obtain ⟨-, -, row, -⟩ := tabledCodesDecode iv key msg o n 0 0; exact row
  | tdesEnc iv key msg => obtain ⟨-, -, -, row, -⟩ := tabledCodesDecode iv key msg 0 0 0 0; exact row
  | tdesDec iv key msg => obtain ⟨-, -, -, -, row, -⟩ := tabledCodesDecode iv key msg 0 0 0 0; exact row
  | tdesDecR iv key msg o n => obtain ⟨-, -, -, -, -, row, -⟩ := tabledCodesDecode iv key msg o n 0 0; exact row
  | tdesDecZ key msg => obtain ⟨-, -, -, -, -, -, row, -⟩ := tabledCodesDecode [] key msg 0 0 0 0; exact row
  | tdesDecZR key msg o n => obtain ⟨-, -, -, -, -, -, -, row, -⟩ := tabledCodesDecode [] key msg o n 0 0; exact row
  | sendCmd msg c e => obtain ⟨-, -, -, -, -, -, -, -, row, -⟩ := tabledCodesDecode [] [] msg 0 0 c e; exact row
  | sendCmdR msg o n c e =>
    obtain ⟨-, -, -, -, -, -, -, -, -, row, -⟩ := tabledCodesDecode [] [] msg o n c e; exact row
  | sendChain msg c =>
    obtain ⟨-, -, -, -, -, -, -, -, -, -, row, -⟩ := tabledCodesDecode [] [] msg 0 0 c 0; exact row
  | sendChainR msg o n c =>
    obtain ⟨-, -, -, -, -, -, -, -, -, -, -, row, -⟩ := tabledCodesDecode [] [] msg o n c 0; exact row
  | sendApduChain msg =>
    obtain ⟨-, -, -, -, -, -, -, -, -, -, -, -, row⟩ := tabledCodesDecode [] [] msg 0 0 0 0; exact row

theorem encode_op (i : Instr) : (encode i).op = opcode i := by cases i <;> rfl

/-- A code that decodes to an operation is tabled (30_encoding R65). -/
theorem mem_legalCodes_of_decode {d : Descriptor} {i : Instr} (h : decode d = .ok i) : d.op ∈ legalCodes := by
  by_contra hreserved
  obtain ⟨r, hr⟩ := decode_reserved hreserved
  exact absurd (h.symm.trans (hr d rfl)) nofun

/-- The operation read from a descriptor is the one that its code tables (30_encoding R64). -/
theorem opcode_of_decode {d : Descriptor} {i : Instr} (h : decode d = .ok i) : opcode i = d.op := by
  have hlegal := mem_legalCodes_of_decode h
  obtain ⟨op, iv, key, msg, o, n, c, e⟩ := d
  simp only [legalCodes, List.mem_cons, List.not_mem_nil, or_false] at hlegal
  have row := tabledCodesDecode iv key msg o n c e
  rcases hlegal with rfl | rfl | rfl | rfl | rfl | rfl | rfl | rfl | rfl | rfl | rfl | rfl | rfl <;>
    simp only [row, Except.ok.injEq] at h <;> rw [← h, opcode]

/-- An operation is well formed exactly when its descriptor can be presented: the operands are the fields of both, and
zero and the empty sequence fit (10_state R23, R24). -/
theorem wf_eq_presentable_encode (p : Params) (i : Instr) : i.wf p = (encode i).presentable p := by
  cases i <;> simp [Instr.wf, encode, Descriptor.presentable, Descriptor.bare]

/-- Settles O2: the rows of the table read both ways. -/
theorem decodeEncodeInverse : Obligations.DecodeEncodeInverse := by
  unfold Obligations.DecodeEncodeInverse
  exact ⟨decode_encode, fun d i h => ⟨(encode_op i).trans (opcode_of_decode h), fun p => decode_wf h⟩,
    wf_eq_presentable_encode⟩

/-! ### A cipher operation whose checks pass (40_cipher_common R91) -/

section
variable {C : Cipher} {iv key msg : Bytes} (hkey : key.length = C.keyLen) (hiv : iv.length = C.block)
include hkey hiv

/-- The shared step on good operands completes with the recurrence on the range (40_cipher_common R91 to R95). -/
theorem cipherOp_range_succeeds {o n : Nat} (hrange : o + n ≤ msg.length) (hblocks : n % C.block = 0) (dir : Dir)
    (s : State) : cipherOp C dir iv key msg ⟨o, n⟩ s =
      .next (complete ⟨0x00#8, 0, 0, (cbcRun C dir iv key (slice msg o n)).1⟩ s) := by
  have hchecks : cipherError C iv key msg ⟨o, n⟩ = none := cipherError_eq_none.mpr ⟨hkey, hiv, hrange, hblocks⟩
  simp only [cipherOp_eq, hchecks, finish_eq_complete]

/-- All of a buffer is in range (20_memory R42). -/
theorem cipherOp_whole_succeeds (hblocks : msg.length % C.block = 0) (dir : Dir) (s : State) :
    cipherOp C dir iv key msg (wholeOf msg) s =
      .next (complete ⟨0x00#8, 0, 0, (cbcRun C dir iv key msg).1⟩ s) := by
  rw [wholeOf, cipherOp_range_succeeds hkey hiv (Nat.zero_add _).le hblocks, slice_whole]

end

/-- Settles O14: the shared step with the AES record, in both directions. -/
theorem aesOperationsComplete : Obligations.AesOperationsComplete := by
  unfold Obligations.AesOperationsComplete
  intro iv key msg s hkey hiv
  refine ⟨fun hblocks => ?_, fun o n hrange hblocks => ?_⟩
  · have hop (dir : Dir) := cipherOp_whole_succeeds (C := aesCipher) hkey hiv hblocks dir s
    exact ⟨hop .encrypt, hop .decrypt⟩
  · exact cipherOp_range_succeeds (C := aesCipher) hkey hiv hrange hblocks .decrypt s

/-- Settles O15: the shared step with the TDES record; a Z form is the form with eight zero bytes as its IV
(40_cipher_common R93). -/
theorem tdesOperationsComplete : Obligations.TdesOperationsComplete := by
  unfold Obligations.TdesOperationsComplete
  intro key msg s hkey
  have hzero : (zeros tdesCipher.block).length = tdesCipher.block := zeros_length _
  have hwhole {iv : Bytes} (hiv : iv.length = tdesCipher.block) (hblocks : msg.length % tdesCipher.block = 0)
      (dir : Dir) := cipherOp_whole_succeeds hkey hiv hblocks dir s
  have hpart {iv : Bytes} (hiv : iv.length = tdesCipher.block) {o n : Nat} (hrange : o + n ≤ msg.length)
      (hblocks : n % tdesCipher.block = 0) := cipherOp_range_succeeds hkey hiv hrange hblocks .decrypt s
  exact ⟨fun iv hiv => ⟨fun hblocks => ⟨hwhole hiv hblocks .encrypt, hwhole hiv hblocks .decrypt⟩,
      fun o n hrange hblocks => hpart hiv hrange hblocks⟩,
    fun hblocks => hwhole hzero hblocks .decrypt, fun o n hrange hblocks => hpart hzero hrange hblocks⟩

end Sys2Proof.Machine
end
